-- ==== Sys2Proof/Word.lean ====
section
/-! DEFINITION. The widths the spec gives its values (00_scope.md R8, R9), as bit vectors. -/

namespace Sys2Proof

/-- A byte on the wire: "8 bits per call" (R8). -/
abbrev Byte := BitVec 8

/-- A Register Address or a Register Value: 16 bits (R8). -/
abbrev Half := BitVec 16

/-- A command word, or a binary32 word: 32 bits (R8, R32). -/
abbrev Word := BitVec 32

/-- The level of a pin or of one sample: `true` is 1. -/
abbrev Level := Bool

end Sys2Proof
end

