-- ==== Sys2Proof/Config.lean ====
section
/-! DEFINITION. The implementation parameters of 00_scope.md R8 and the free values the spec leaves open. -/

namespace Sys2Proof

/-- The five dwell parameters, by the names a trace gives them (R8, R12). -/
inductive Delay where
  | tInit
  | tCss
  | tTurn
  | tLo
  | tHi
  deriving DecidableEq, Repr

/-- The parameters a model takes as arguments (R8), fixed for a whole run (70_reset_and_hazards.md R235).
The three register codes are opaque 16-bit codes; the five timing parameters are lower bounds in `clk` cycles. -/
structure Config where
  addrAngle  : Half
  addrSpeed  : Half
  addrStatus : Half
  tInit : Nat
  tCss  : Nat
  tTurn : Nat
  tLo   : Nat
  tHi   : Nat
  deriving DecidableEq, Repr

/-- The number of cycles a named dwell lasts at least. -/
def Config.cycles (c : Config) : Delay → Nat
  | .tInit => c.tInit
  | .tCss => c.tCss
  | .tTurn => c.tTurn
  | .tLo => c.tLo
  | .tHi => c.tHi

/-- The three register codes of the machine that `State.reset` describes: OPEN (R8, D12), so no value is given here. -/
opaque Config.openAddr : Fin 3 → Half

/-- The five timing parameters of that machine, less one: OPEN (R8, D6), each at least 1, so no value is given here. -/
opaque Config.openTime : Delay → Nat

/-- The level on `sdi` at the n-th sample, where the state lists none: a free draw under no law (R12, D25). -/
opaque Config.sdiLevel : Nat → Level

/-- The configuration of the machine after reset: well formed, and otherwise open. -/
def Config.board : Config where
  addrAngle := Config.openAddr 0
  addrSpeed := Config.openAddr 1
  addrStatus := Config.openAddr 2
  tInit := Config.openTime .tInit + 1
  tCss := Config.openTime .tCss + 1
  tTurn := Config.openTime .tTurn + 1
  tLo := Config.openTime .tLo + 1
  tHi := Config.openTime .tHi + 1

end Sys2Proof
end

