-- ==== Sys2Proof/Syntax.lean ====
section
/-! DEFINITION. The seven commands (30_encoding.md R72), and the assembler's lines over them (R78, R79). -/

namespace Sys2Proof

/-- One constructor per row of the opcode map (R72). The operand types are the widths of R73, so every term of this type is a
legal command. -/
inductive Instr where
  /-- `INIT`: drive the idle levels and wait the settle time (44_init.md R190). -/
  | init
  /-- `SEND_BYTE BYTE` (41_bit_transport.md R122). -/
  | sendByte (byte : Byte)
  /-- `RECV_BYTE` (41_bit_transport.md R126). -/
  | recvByte
  /-- `READ_REG ADDR` (42_register_channel.md R142). -/
  | readReg (addr : Half)
  /-- `READ_ANGLE` (43_value_decoder.md R161). -/
  | readAngle
  /-- `READ_SPEED` (43_value_decoder.md R165). -/
  | readSpeed
  /-- `READ_STATUS` (43_value_decoder.md R168). -/
  | readStatus
  deriving DecidableEq, Repr

/-- One line of assembler (R78): a mnemonic and, for two of them, an operand as written, which need not fit its field.
The last three are the pseudo-instructions of R79. -/
inductive Asm where
  | init
  | sendByte (operand : Nat)
  | recvByte
  | readReg (operand : Nat)
  | readAngle
  | readSpeed
  | readStatus
  | readRegAngle
  | readRegSpeed
  | readRegStatus
  deriving DecidableEq, Repr

end Sys2Proof
end

