-- ==== Sys2Proof/WellFormed.lean ====
section
/-! DEFINITION. What the model accepts as well formed: configurations (00_scope.md R8), commands, assembler lines (30_encoding.md R78).
The check on command WORDS, `legal` of R75, stands in Decode.lean beside the fields it reads. -/

namespace Sys2Proof

/-- "A model configuration with any timing parameter equal to 0 is ill-formed and is refused" (R8). -/
def Config.wellFormed (c : Config) : Bool :=
  decide (1 ≤ c.tInit) && decide (1 ≤ c.tCss) && decide (1 ≤ c.tTurn) && decide (1 ≤ c.tLo) && decide (1 ≤ c.tHi)

/-- Every command term is well formed: an 8-bit BYTE and a 16-bit ADDR admit every value (R73, 20_memory.md R55), and no other
command has an operand. -/
def Instr.wellFormed : Instr → Bool
  | .init => true
  | .sendByte _ => true
  | .recvByte => true
  | .readReg _ => true
  | .readAngle => true
  | .readSpeed => true
  | .readStatus => true

/-- "An operand that does not fit its field is an assembly error and is never truncated" (R78). -/
def Asm.wellFormed : Asm → Bool
  | .sendByte n => decide (n < 2 ^ 8)
  | .readReg n => decide (n < 2 ^ 16)
  | .init => true
  | .recvByte => true
  | .readAngle => true
  | .readSpeed => true
  | .readStatus => true
  | .readRegAngle => true
  | .readRegSpeed => true
  | .readRegStatus => true

end Sys2Proof
end

