-- ==== Sys2Proof/Decode.lean ====
section
/-! DEFINITION. The command word: its fields, which words are legal, the decoder and the encoder (30_encoding.md R70 to R76). -/

namespace Sys2Proof

/-- `OP = w[31:28]`, in the same place in every format (R71). -/
def opField (w : Word) : BitVec 4 := w.extractLsb' 28 4

/-- Format N's `SBZ` field, `w[27:0]` (R71). -/
def sbzN (w : Word) : BitVec 28 := w.extractLsb' 0 28

/-- Format B's `SBZ` field, `w[27:8]` (R71). -/
def sbzB (w : Word) : BitVec 20 := w.extractLsb' 8 20

/-- Format A's `SBZ` field, `w[27:16]` (R71). -/
def sbzA (w : Word) : BitVec 12 := w.extractLsb' 16 12

/-- `BYTE = w[7:0]` (R73). -/
def byteField (w : Word) : Byte := w.extractLsb' 0 8

/-- `ADDR = w[15:0]` (R73), also the bits `CMD_OPND` latches (40_command_dispatch.md R101). -/
def addrField (w : Word) : Half := w.extractLsb' 0 16

/-- The three cases of a reserved word (R76). -/
inductive Reserved where
  /-- `OP = 0x0`. -/
  | opcodeZero
  /-- `OP` in 0x8 to 0xF. -/
  | opcodeHigh
  /-- A legal `OP` with an `SBZ` bit set. -/
  | mustBeZero
  deriving DecidableEq, Repr

/-- What the decoder answers: a command, or the reason the word is reserved. -/
inductive Decoded where
  | command (i : Instr)
  | reserved (r : Reserved)
  deriving DecidableEq, Repr

/-- The command of a decoding, where there is one. -/
def Decoded.toOption : Decoded → Option Instr
  | .command i => some i
  | .reserved _ => none

/-- The decoder: total on the 2^32 words of the port, rejecting by name (R70, R72, R73, R76). -/
def decode (w : Word) : Decoded :=
  match (opField w).toNat with
  | 0 => .reserved .opcodeZero
  | 1 => if sbzN w = 0 then .command .init else .reserved .mustBeZero
  | 2 => if sbzB w = 0 then .command (.sendByte (byteField w)) else .reserved .mustBeZero
  | 3 => if sbzN w = 0 then .command .recvByte else .reserved .mustBeZero
  | 4 => if sbzA w = 0 then .command (.readReg (addrField w)) else .reserved .mustBeZero
  | 5 => if sbzN w = 0 then .command .readAngle else .reserved .mustBeZero
  | 6 => if sbzN w = 0 then .command .readSpeed else .reserved .mustBeZero
  | 7 => if sbzN w = 0 then .command .readStatus else .reserved .mustBeZero
  | _ => .reserved .opcodeHigh

/-- Format N: `OP`, then 28 zeros (R71). -/
def formatN (op : BitVec 4) : Word := op ++ 0#28

/-- Format B: `OP`, 20 zeros, `BYTE` (R71). -/
def formatB (op : BitVec 4) (byte : Byte) : Word := op ++ 0#20 ++ byte

/-- Format A: `OP`, 12 zeros, `ADDR` (R71). -/
def formatA (op : BitVec 4) (addr : Half) : Word := op ++ 0#12 ++ addr

/-- The encoder (R71, R72): the word of a command. -/
def encode : Instr → Word
  | .init => formatN 0x1#4
  | .sendByte b => formatB 0x2#4 b
  | .recvByte => formatN 0x3#4
  | .readReg a => formatA 0x4#4 a
  | .readAngle => formatN 0x5#4
  | .readSpeed => formatN 0x6#4
  | .readStatus => formatN 0x7#4

/-- `legal(w)` as R75 writes it out. -/
def legal (w : Word) : Bool :=
  ([0x1#4, 0x3#4, 0x5#4, 0x6#4, 0x7#4].contains (opField w) && sbzN w == 0) ||
    (opField w == 0x2#4 && sbzB w == 0) ||
    (opField w == 0x4#4 && sbzA w == 0)

/-- One row of the match and mask table (R72). -/
structure OpRow where
  mnemonic : String
  op : BitVec 4
  pattern : Word
  mask : Word
  deriving DecidableEq, Repr

/-- The match and mask table (R72). -/
def opRows : List OpRow :=
  [⟨"INIT", 0x1#4, 0x10000000#32, 0xFFFFFFFF#32⟩,
   ⟨"SEND_BYTE", 0x2#4, 0x20000000#32, 0xFFFFFF00#32⟩,
   ⟨"RECV_BYTE", 0x3#4, 0x30000000#32, 0xFFFFFFFF#32⟩,
   ⟨"READ_REG", 0x4#4, 0x40000000#32, 0xFFFF0000#32⟩,
   ⟨"READ_ANGLE", 0x5#4, 0x50000000#32, 0xFFFFFFFF#32⟩,
   ⟨"READ_SPEED", 0x6#4, 0x60000000#32, 0xFFFFFFFF#32⟩,
   ⟨"READ_STATUS", 0x7#4, 0x70000000#32, 0xFFFFFFFF#32⟩]

/-- "A word `w` selects the command when `w & mask == match`" (R72). -/
def OpRow.selects (r : OpRow) (w : Word) : Bool := (w &&& r.mask) == r.pattern

/-- The row an instruction belongs to, by its opcode. -/
def Instr.opcode : Instr → BitVec 4
  | .init => 0x1#4
  | .sendByte _ => 0x2#4
  | .recvByte => 0x3#4
  | .readReg _ => 0x4#4
  | .readAngle => 0x5#4
  | .readSpeed => 0x6#4
  | .readStatus => 0x7#4

/-- The command word that `nbits` bits of value `w` stand for: the bits above `nbits` are 0. -/
def tableWord (nbits w : Nat) : Word := BitVec.ofNat 32 (w % 2 ^ nbits)

/-- The instruction the decoder reads from a word of the opcode table. Every command is one 32-bit word (R70): nothing longer decodes. -/
def decodeTableWord (nbits w : Nat) : Option Instr :=
  if nbits ≤ 32 then (decode (tableWord nbits w)).toOption else none

end Sys2Proof
end

