-- ==== Sys2Proof/Machine/State.lean ====
section
/-! DEFINITION. The state of the block as plain data (10_state.md R20 to R35), with the inputs and the trace of the model's step. -/

namespace Sys2Proof.Machine

/-- The four pin output registers, as the primitives `SetOE`, `SetCS`, `SetSCK`, `SetSDO` name them (00_scope.md R11, R24). -/
inductive Pin where
  | oe
  | csN
  | sck
  | sdo
  deriving DecidableEq, Repr

/-- One entry of a command's pin-event trace (00_scope.md R11, R12). -/
inductive PinEvent where
  /-- One `Set` primitive. -/
  | set (pin : Pin) (level : Level)
  /-- A grouped event: all its primitives take effect in the same clock edge (R11). -/
  | group (sets : List (Pin × Level))
  /-- `Wait(T)`: at least `T` cycles with every output unchanged. -/
  | wait (d : Delay)
  /-- `Sample()`, with the level it returned. -/
  | sample (level : Level)
  deriving DecidableEq, Repr

/-- `SEQ`: idle, or the number of sequencer actions of the running command already performed (R34). -/
inductive Seq where
  | idle
  | running (done : Nat)
  deriving DecidableEq, Repr

/-- What the host does at one host-visible event (40_command_dispatch.md R100, R108; 70_reset_and_hazards.md R230). -/
inductive HostEvent where
  /-- An edge with `cmd_valid = 0` and `rst = 0`. -/
  | idle
  /-- `cmd_valid = 1` with this word, held until it is accepted. -/
  | command (w : Word)
  /-- `rst = 1` at an edge. -/
  | reset
  /-- The word is presented, and `rst = 1` after this many of its trace events, before it completes. -/
  | resetDuring (w : Word) (events : Nat)
  deriving DecidableEq, Repr

/-- The state. The first group is the spec's own (R24 to R34), the second the model's (assumption log 2 to 5). -/
structure State where
  /-- `PIN_OE` (R24). -/
  pinOe : Level
  /-- `PIN_CS_N` (R24). -/
  pinCsN : Level
  /-- `PIN_SCK` (R24). -/
  pinSck : Level
  /-- `PIN_SDO` (R24). -/
  pinSdo : Level
  /-- `BUSY` (R25). -/
  busy : Bool
  /-- `INIT_DONE` (R26). -/
  initDone : Bool
  /-- `ANGLE_ERR` (R28). -/
  angleErr : Bool
  /-- `ERR_ILLEGAL` (R29). -/
  errIllegal : Bool
  /-- `ERR_NOINIT` (R30). -/
  errNoinit : Bool
  /-- `RESULT` (R31). -/
  result : Half
  /-- `ANGLE` (R32). -/
  angle : Word
  /-- `CMD_OP` (R33). -/
  cmdOp : BitVec 4
  /-- `CMD_OPND` (R33). -/
  cmdOpnd : Half
  /-- `SEQ` (R34). -/
  seq : Seq
  /-- `SR` (R34). -/
  sr : Byte
  /-- `BITCNT`, 0 to 8 (R34). -/
  bitcnt : Nat
  /-- `RX16` (R34). -/
  rx16 : Half
  /-- `DLY` (R34). -/
  dly : Nat
  /-- The parameters (00_scope.md R8), fixed for the run (R235). -/
  cfg : Config
  /-- What the host does next, first event first. -/
  host : List HostEvent
  /-- The levels the sensor presents at the coming samples, first sample first; past its end the draws are `Config.sdiLevel`. -/
  sdi : List Level
  /-- The number of samples taken so far. -/
  sampleNo : Nat
  /-- The pin events of the last command-level step (R108), first event first. -/
  trace : List PinEvent
  deriving DecidableEq, Repr

/-- The reasons to stop with a fault: none. "The model has no fault, stuck or refused outcome for a legal command"
(40_command_dispatch.md R109; 60_exceptions.md R202). -/
inductive Fault where
  deriving DecidableEq, Repr

/-- The reasons to refuse. -/
inductive Refusal where
  /-- An instruction with no meaning yet, refused in its arm of `exec`; no arm does. Safe: nothing is claimed of it. -/
  | notModelled (mnemonic : String)
  /-- Raised by `step` for a configuration with a timing parameter of 0: "The only refusal is of a configuration"
  (R109, 00_scope.md R8). Safe: the spec says it is refused. -/
  | illFormedConfig
  deriving DecidableEq, Repr

/-- The reset state (R35). The block's registers are at the values of R35's table; the hidden registers it calls unspecified
are 0 (DESIGN CHOICE, assumption log 1); nothing has happened on the host's or the sensor's side (log 2, 3). -/
def State.reset : State where
  pinOe := false
  pinCsN := true
  pinSck := false
  pinSdo := false
  busy := false
  initDone := false
  angleErr := false
  errIllegal := false
  errNoinit := false
  result := 0x0000#16
  angle := 0x00000000#32
  cmdOp := 0#4
  cmdOpnd := 0#16
  seq := .idle
  sr := 0#8
  bitcnt := 0
  rx16 := 0#16
  dly := 0
  cfg := Config.board
  host := []
  sdi := []
  sampleNo := 0
  trace := []

end Sys2Proof.Machine
end

