-- ==== Sys2Proof/Machine/Flags.lean ====
section
/-! DEFINITION. The `FLAGS` port and every computation of a flag (10_state.md R25 to R30; 60_exceptions.md R200). -/

namespace Sys2Proof.Machine

/-- `FLAGS` (R27): bit 0 `BUSY`, bit 1 `INIT_DONE`, bit 2 `ANGLE_ERR`, bit 3 `ERR_ILLEGAL`, bit 4 `ERR_NOINIT`, bits 15:5 read 0. -/
def State.flags (s : State) : Half :=
  0#11 ++ BitVec.ofBool s.errNoinit ++ BitVec.ofBool s.errIllegal ++ BitVec.ofBool s.angleErr ++
    BitVec.ofBool s.initDone ++ BitVec.ofBool s.busy

/-- The failure sentinel (00_scope.md R8). -/
def sentinel : Half := 0xFFFF#16

/-- `ANGLE_ERR` after a READ_ANGLE (43_value_decoder.md R162): the raw value is the sentinel. -/
def angleErrOf (raw : Half) : Bool := raw == sentinel

/-- The word is rejected as reserved: `ERR_ILLEGAL <- 1`, nothing else, the empty trace (R29, 40_command_dispatch.md R102, R108). -/
def rejectIllegal (s : State) : State := { s with errIllegal := true, trace := [] }

/-- The word is rejected before INIT: `ERR_NOINIT <- 1`, nothing else, the empty trace (R30, R102, R108). -/
def rejectNoinit (s : State) : State := { s with errNoinit := true, trace := [] }

end Sys2Proof.Machine
end

