-- ==== Sys2Proof/Machine/Operands.lean ====
section
/-! DEFINITION. Operand assembly from `CMD_OPND` (30_encoding.md R73), and the bit and byte order of the wire (20_memory.md R52, R53). -/

namespace Sys2Proof.Machine

/-- `CMD_OPND[7:0]`, the BYTE of SEND_BYTE (R73, 41_bit_transport.md R122). -/
def byteOperand (s : State) : Byte := s.cmdOpnd.extractLsb' 0 8

/-- `CMD_OPND[15:0]`, the ADDR of READ_REG (R73, 42_register_channel.md R142). -/
def addrOperand (s : State) : Half := s.cmdOpnd

/-- `a[15:8]`, the byte sent first (R52). -/
def highByte (a : Half) : Byte := a.extractLsb' 8 8

/-- `a[7:0]`, the byte sent second (R52). -/
def lowByte (a : Half) : Byte := a.extractLsb' 0 8

/-- `h ++ l = (h << 8) | l`: the first byte received is the high one (R52, 42_register_channel.md R141). -/
def joinBytes (h l : Byte) : Half := h ++ l

/-- `v[i] <- b` (00_scope.md R9). -/
def assignBit (v : Byte) (i : Nat) (b : Level) : Byte :=
  if b then v ||| (1#8 <<< i) else v &&& ~~~(1#8 <<< i)

/-- The index of the bit on the wire when `BITCNT` bits of the byte are done: bit 7 first, bit 0 last (R53). -/
def bitIndex (s : State) : Nat := 7 - s.bitcnt

/-- `zext_16` of a byte (00_scope.md R10, R126). -/
def zextByte (v : Byte) : Half := v.setWidth 16

end Sys2Proof.Machine
end

