-- ==== Sys2Proof/Machine/Ops.lean ====
section
/-! DEFINITION. The pin-event primitives and the sequencer's actions (00_scope.md R11, R12; 10_state.md R34), the reset
(70_reset_and_hazards.md R230), and how a command is accepted, started, run and completed (40_command_dispatch.md R100 to R104).
The block has no trap (60_exceptions.md R202): what takes the place of an exception is a rejection (Flags.lean). -/

namespace Sys2Proof.Machine

/-- Drive one pin output register (R24). -/
def State.drive (s : State) (pin : Pin) (b : Level) : State :=
  match pin with
  | .oe => { s with pinOe := b }
  | .csN => { s with pinCsN := b }
  | .sck => { s with pinSck := b }
  | .sdo => { s with pinSdo := b }

/-- Drive several pin output registers in one clock edge (R11). -/
def State.driveAll (s : State) : List (Pin × Level) → State
  | [] => s
  | (pin, b) :: rest => (s.drive pin b).driveAll rest

/-- Append one event to the trace; the dwell counter starts again (R11, R34). -/
def State.log (s : State) (e : PinEvent) : State := { s with trace := s.trace ++ [e], dly := 0 }

/-- The level the k-th coming sample returns (k = 0 is the next one): a free draw (R12, R108). -/
def State.draw (s : State) (k : Nat) : Level :=
  (s.sdi[k]?).getD (Config.sdiLevel (s.sampleNo + k))

/-- One action of the sequencer. All but `load` and `holdHigh` append exactly one event to the trace. -/
inductive Micro where
  /-- `SetCS`, `SetSCK`, `SetSDO` or `SetOE` (R11). -/
  | set (pin : Pin) (b : Level)
  /-- A grouped event (R11). -/
  | group (sets : List (Pin × Level))
  /-- `Wait(T)` (R11). -/
  | wait (d : Delay)
  /-- `SetSDO(SR[i])`, for the bit `i` now on the wire (41_bit_transport.md R121). -/
  | sendBit
  /-- `SR[i] = Sample()`, for the bit `i` now on the wire (41_bit_transport.md R125). -/
  | sample
  /-- `SetSCK(0)`, the end of a bit: one more bit of the byte is done. -/
  | fall
  /-- The byte transfer begins with `SR` at this value and no bit done; no event. -/
  | load (v : Byte)
  /-- The byte received is the high one: `RX16` holds it while the low one arrives; no event. -/
  | holdHigh
  deriving DecidableEq, Repr

/-- Does the action append an event to the trace? -/
def Micro.isEvent : Micro → Bool
  | .set _ _ => true
  | .group _ => true
  | .wait _ => true
  | .sendBit => true
  | .sample => true
  | .fall => true
  | .load _ => false
  | .holdHigh => false

/-- `SetSDO(SR[i])` (R121). -/
def sendBit (s : State) : State :=
  (s.drive .sdo (s.sr.getLsbD (bitIndex s))).log (.set .sdo (s.sr.getLsbD (bitIndex s)))

/-- `SR[i] = Sample()` (R125): the next draw is consumed. -/
def sampleBit (s : State) : State :=
  { s with
    sr := assignBit s.sr (bitIndex s) (s.draw 0)
    sdi := s.sdi.tail
    sampleNo := s.sampleNo + 1 }.log (.sample (s.draw 0))

/-- `SetSCK(0)`, and one more bit is done (R34, R121, R125). -/
def endBit (s : State) : State :=
  { (s.drive .sck false) with bitcnt := s.bitcnt + 1 }.log (.set .sck false)

/-- Perform one action (R12: events take effect in trace order). -/
def perform (s : State) : Micro → State
  | .set pin b => (s.drive pin b).log (.set pin b)
  | .group sets => (s.driveAll sets).log (.group sets)
  | .wait d => s.log (.wait d)
  | .sendBit => sendBit s
  | .sample => sampleBit s
  | .fall => endBit s
  | .load v => { s with sr := v, bitcnt := 0, dly := 0 }
  | .holdHigh => { s with rx16 := zextByte s.sr, dly := 0 }

/-- Perform a list of actions in order. -/
def run (actions : List Micro) (s : State) : State := actions.foldl perform s

/-- The first actions of a program, up to and with its n-th event. -/
def firstEvents : Nat → List Micro → List Micro
  | 0, _ => []
  | _, [] => []
  | n + 1, a :: rest => a :: firstEvents (if a.isEvent then n else n + 1) rest

/-- At an edge with `rst = 1` every piece of the block's state takes its reset value (R230, R35). The parameters, the host, the
sensor and the events already on the wire are not the block's state. -/
def resetBlock (s : State) : State :=
  { State.reset with cfg := s.cfg, host := s.host, sdi := s.sdi, sampleNo := s.sampleNo, trace := s.trace }

/-- Latch the word's fields at the accepting edge (R101, 10_state.md R33). -/
def latch (w : Word) (s : State) : State := { s with cmdOp := opField w, cmdOpnd := addrField w }

/-- The acceptance-time writes of a command: only INIT has any (40_command_dispatch.md R103, 44_init.md R190). -/
def acceptWrites (i : Instr) (s : State) : State :=
  match i with
  | .init => { s with errIllegal := false, errNoinit := false, initDone := false }
  | .sendByte _ => s
  | .recvByte => s
  | .readReg _ => s
  | .readAngle => s
  | .readSpeed => s
  | .readStatus => s

/-- `start(w)` (R103): the command is latched, `BUSY <- 1`, the sequencer stands before its first action, the trace is empty. -/
def start (i : Instr) (s : State) : State :=
  { acceptWrites i (latch (encode i) s) with busy := true, seq := .running 0, trace := [] }

/-- The end of every command at its completing edge: `BUSY <- 0`, the sequencer is idle (R104). -/
def complete (s : State) : State := { s with busy := false, seq := .idle }

/-- The two dispatcher checks a legal word passes before it starts: only INIT may run while `INIT_DONE = 0` (R102). -/
def mayStart (i : Instr) (s : State) : Bool := i.opcode == 0x1#4 || s.initDone

/-- The meaning of every command, given the program its rule names and its completion writes: not accepted while `BUSY = 1` (R100,
10_state.md R37: the word waits), rejected with `ERR_NOINIT` before INIT (R102), else started, run to its last event, and completed
(R103 to R105, R108). -/
def runCommand (i : Instr) (program : State → List Micro) (writes : State → State) (s : State) :
    Host.Outcome State Fault Refusal :=
  if s.busy then .next s
  else if mayStart i s then .next (complete (writes (run (program (start i s)) (start i s))))
  else .next (rejectNoinit s)

end Sys2Proof.Machine
end

