-- ==== Sys2Proof/Machine/Init.lean ====
section
/-! DEFINITION. Initialization: INIT (44_init.md). -/

namespace Sys2Proof.Machine

/-- The idle levels, driven in one grouped event (R190). -/
def idleLevels : List (Pin × Level) := [(.oe, true), (.csN, true), (.sck, false), (.sdo, false)]

/-- The program of INIT: the idle levels, then `Wait(T_INIT)` (R190). -/
def initProgram (_ : State) : List Micro := [.group idleLevels, .wait .tInit]

/-- `INIT_DONE <- 1` (R190). -/
def initWrites (s : State) : State := { s with initDone := true }

/-- `INIT` (R190, R191). -/
def execInit (s : State) : Host.Outcome State Fault Refusal :=
  runCommand .init initProgram initWrites s

end Sys2Proof.Machine
end

