-- ==== Sys2Proof/Machine/BitTransport.lean ====
section
/-! DEFINITION. The Bit Transport: `TxByte`, `RxByte`, SEND_BYTE and RECV_BYTE (41_bit_transport.md). The pseudocode's `b` and `v` are the
register `SR`; its loop variable is `i = 7 - BITCNT`. -/

namespace Sys2Proof.Machine

/-- One bit of `TxByte` (R121). -/
def txBit : List Micro := [.sendBit, .wait .tLo, .set .sck true, .wait .tHi, .fall]

/-- `TxByte(b)` (R121): eight bits, bit 7 first. -/
def txByte (b : Byte) : List Micro :=
  .load b :: (txBit ++ txBit ++ txBit ++ txBit ++ txBit ++ txBit ++ txBit ++ txBit)

/-- One bit of `RxByte` (R125). -/
def rxBit : List Micro := [.wait .tLo, .set .sck true, .wait .tHi, .sample, .fall]

/-- `RxByte()` (R125): `v = 0x00`, then eight bits, bit 7 first; the byte is left in `SR`. -/
def rxByte : List Micro :=
  .load 0x00#8 :: (rxBit ++ rxBit ++ rxBit ++ rxBit ++ rxBit ++ rxBit ++ rxBit ++ rxBit)

/-- `send(bytes)` of the shared transport view (40_command_dispatch.md R110): `TxByte` of each byte in order. -/
def send : List Byte → List Micro
  | [] => []
  | b :: rest => txByte b ++ send rest

/-- `receive(n)` of the shared transport view (R110): `RxByte` n times. The last byte is left in `SR`, the one before it in `RX16`;
the block uses `receive(1)` and `receive(2)` only. -/
def receive : Nat → List Micro
  | 0 => []
  | 1 => rxByte
  | n + 2 => rxByte ++ .holdHigh :: receive (n + 1)

/-- The program of SEND_BYTE: `TxByte(CMD_OPND[7:0])` (R122). -/
def sendByteProgram (s : State) : List Micro := send [byteOperand s]

/-- SEND_BYTE writes no result register (R122). -/
def sendByteWrites (s : State) : State := s

/-- `SEND_BYTE` (R122). -/
def execSendByte (b : Byte) (s : State) : Host.Outcome State Fault Refusal :=
  runCommand (.sendByte b) sendByteProgram sendByteWrites s

/-- The program of RECV_BYTE: `v = RxByte()` (R126). -/
def recvByteProgram (_ : State) : List Micro := receive 1

/-- `RESULT <- zext_16(v)` (R126). -/
def recvByteWrites (s : State) : State := { s with result := zextByte s.sr }

/-- `RECV_BYTE` (R126). -/
def execRecvByte (s : State) : Host.Outcome State Fault Refusal :=
  runCommand .recvByte recvByteProgram recvByteWrites s

end Sys2Proof.Machine
end

