-- ==== Sys2Proof/Machine/RegisterChannel.lean ====
section
/-! DEFINITION. The Register Channel: `Transact` and READ_REG (42_register_channel.md). -/

namespace Sys2Proof.Machine

/-- `Transact(a)`: the six protocol steps (R141). -/
def transact (a : Half) : List Micro :=
  [.set .csN false, .wait .tCss] ++ send [highByte a, lowByte a] ++ [.wait .tTurn] ++ receive 2 ++ [.set .csN true]

/-- The value `Transact` returns: `h ++ l` (R141), the high byte from `RX16`, the low one from `SR`. -/
def transactValue (s : State) : Half := joinBytes (lowByte s.rx16) s.sr

/-- The program of READ_REG: `Transact(CMD_OPND[15:0])` (R142). -/
def readRegProgram (s : State) : List Micro := transact (addrOperand s)

/-- `RESULT <- v` (R142). -/
def readRegWrites (s : State) : State := { s with result := transactValue s }

/-- `READ_REG` (R142). -/
def execReadReg (a : Half) (s : State) : Host.Outcome State Fault Refusal :=
  runCommand (.readReg a) readRegProgram readRegWrites s

end Sys2Proof.Machine
end

