-- ==== Sys2Proof/Machine/ValueDecoder.lean ====
section
/-! DEFINITION. The Value Decoder: READ_ANGLE, READ_SPEED and READ_STATUS (43_value_decoder.md). -/

namespace Sys2Proof.Machine

/-- `raw[14:0]`, the 15-bit code of an angle or a speed (R161, R165). -/
def codeOf (raw : Half) : BitVec 15 := raw.extractLsb' 0 15

/-- `F32Angle(code)` (R163): the binary32 word of `code * 360 / 32768`, built from `n = code * 360`, `k = floor(log2 n)`,
`E = k - 15 + 127` (written `k + 112`: `k` may be below 15) and the 23-bit fraction. -/
def f32Angle (code : BitVec 15) : Word :=
  let n := code.toNat * 360
  let k := Nat.log2 n
  if n = 0 then 0x00000000#32 else BitVec.ofNat 32 ((k + 112) * 2 ^ 23 + (n * 2 ^ (23 - k) - 2 ^ 23))

/-- Binary32 -1.0, the angle error value (R163, R8). -/
def angleErrorValue : Word := 0xBF800000#32

/-- The `ANGLE` a READ_ANGLE writes (R161). -/
def angleOf (raw : Half) : Word := if angleErrOf raw then angleErrorValue else f32Angle (codeOf raw)

/-- The program of READ_ANGLE: `Transact(ADDR_ANGLE)` (R161). -/
def readAngleProgram (s : State) : List Micro := transact s.cfg.addrAngle

/-- READ_ANGLE's writes, all in the completing edge (R161). -/
def readAngleWrites (s : State) : State :=
  { s with
    result := transactValue s
    angleErr := angleErrOf (transactValue s)
    angle := angleOf (transactValue s) }

/-- `READ_ANGLE` (R161). -/
def execReadAngle (s : State) : Host.Outcome State Fault Refusal :=
  runCommand .readAngle readAngleProgram readAngleWrites s

/-- The speed a READ_SPEED returns: `sext_16(raw[14:0])` (R165, R166). -/
def speedOf (raw : Half) : Half := (codeOf raw).signExtend 16

/-- The program of READ_SPEED: `Transact(ADDR_SPEED)` (R165). -/
def readSpeedProgram (s : State) : List Micro := transact s.cfg.addrSpeed

/-- `RESULT <- spd` (R165). -/
def readSpeedWrites (s : State) : State := { s with result := speedOf (transactValue s) }

/-- `READ_SPEED` (R165). -/
def execReadSpeed (s : State) : Host.Outcome State Fault Refusal :=
  runCommand .readSpeed readSpeedProgram readSpeedWrites s

/-- The program of READ_STATUS: `Transact(ADDR_STATUS)` (R168). -/
def readStatusProgram (s : State) : List Micro := transact s.cfg.addrStatus

/-- `RESULT <- raw` (R168). -/
def readStatusWrites (s : State) : State := { s with result := transactValue s }

/-- `READ_STATUS` (R168). -/
def execReadStatus (s : State) : Host.Outcome State Fault Refusal :=
  runCommand .readStatus readStatusProgram readStatusWrites s

end Sys2Proof.Machine
end

