-- ==== Sys2Proof/Machine/Sequencer.lean ====
section
/-! DEFINITION. The sequencer of a running command: which program and which completion writes the latched `CMD_OP` selects
(40_command_dispatch.md R103), what is left of it at `SEQ`, and its end (R104). Opcodes that never run select nothing. -/

namespace Sys2Proof.Machine

/-- The program of the latched command (R103's table). -/
def programOf (s : State) : List Micro :=
  match s.cmdOp.toNat with
  | 1 => initProgram s
  | 2 => sendByteProgram s
  | 3 => recvByteProgram s
  | 4 => readRegProgram s
  | 5 => readAngleProgram s
  | 6 => readSpeedProgram s
  | 7 => readStatusProgram s
  | _ => []

/-- The completion writes of the latched command (R104). -/
def resultWrites (s : State) : State :=
  match s.cmdOp.toNat with
  | 1 => initWrites s
  | 2 => sendByteWrites s
  | 3 => recvByteWrites s
  | 4 => readRegWrites s
  | 5 => readAngleWrites s
  | 6 => readSpeedWrites s
  | 7 => readStatusWrites s
  | _ => s

/-- The number of actions of the running command already performed (10_state.md R34). -/
def Seq.position : Seq → Nat
  | .idle => 0
  | .running done => done

/-- What is left of the running command's program. -/
def remaining (s : State) : List Micro := (programOf s).drop s.seq.position

/-- The completing edge of the running command (R104). -/
def finish (s : State) : State := complete (resultWrites s)

/-- A running command runs to completion, whatever the host presents meanwhile (R105, 70_reset_and_hazards.md R236). -/
def finishRunning (s : State) : State := finish (run (remaining s) s)

end Sys2Proof.Machine
end

