-- ==== Sys2Proof/Machine/HostPort.lean ====
section
/-! DEFINITION. The command port at the command level: what one host-visible event does (40_command_dispatch.md R100 to R108;
70_reset_and_hazards.md R230), and how a word is placed there. -/

namespace Sys2Proof.Machine

/-- The word is accepted (R102): reserved words are rejected first, then the command's own meaning takes over. -/
def present (w : Word) (s : State) : Host.Outcome State Fault Refusal :=
  match decode w with
  | .command i => exec i s
  | .reserved _ => .next (rejectIllegal s)

/-- The word is accepted, and `rst = 1` after this many of its trace events and before its completing edge: the rest of the trace
does not happen and no result is written (R230, R231). -/
def presentThenReset (w : Word) (events : Nat) (s : State) : State :=
  match decode w with
  | .reserved _ => resetBlock (rejectIllegal s)
  | .command i =>
    if mayStart i s then resetBlock (run (firstEvents events (programOf (start i s))) (start i s))
    else resetBlock (rejectNoinit s)

/-- A step that drives nothing: its trace is empty and nothing else changes (60_exceptions.md R213). -/
def stayIdle (s : State) : State := { s with trace := [] }

/-- The Reset step (R108, R230): any state to the reset state. A command it cuts keeps the events it had already driven. -/
def resetStep (s : State) : State := resetBlock (if s.busy then s else stayIdle s)

/-- One host-visible event (R108). `rst = 1` wins over everything (60_exceptions.md R204). While a command runs the word waits
(R100, R236) and the step runs that command to its completion. -/
def takeHostEvent (s : State) : Host.Outcome State Fault Refusal :=
  match s.host with
  | [] => if s.busy then .next (finishRunning s) else .next (stayIdle s)
  | .idle :: rest => if s.busy then .next (finishRunning s) else .next (stayIdle { s with host := rest })
  | .reset :: rest => .next (resetStep { s with host := rest })
  | .command w :: rest => if s.busy then .next (finishRunning s) else present w { s with host := rest }
  | .resetDuring w events :: rest =>
    if s.busy then .next (finishRunning s) else .next (presentThenReset w events { s with host := rest })

/-- The host presents this word next, and the port can accept it: no command is running. -/
def placeWord (w : Word) (s : State) : State :=
  { s with host := .command w :: s.host, busy := false, seq := .idle }

end Sys2Proof.Machine
end

