-- ==== Sys2Proof/Machine/Step.lean ====
section
/-! DEFINITION. The model's step (40_command_dispatch.md R108), and the placing of a word where it takes its next command. -/

namespace Sys2Proof.Machine

/-- One step: an ill-formed configuration is refused (00_scope.md R8, R109); else one host-visible event happens (R108). -/
def step (s : State) : Host.Outcome State Fault Refusal :=
  if s.cfg.wellFormed then takeHostEvent s else .refused .illFormedConfig

/-- The state in which the very next step accepts this word: the host presents it first. Nothing else changes after reset. -/
def State.withFetchWord (s : State) (nbits w : Nat) : State := placeWord (tableWord nbits w) s

end Sys2Proof.Machine
end

