-- ==== Sys2Proof/Machine/Assembler.lean ====
section
/-! DEFINITION. The spec's assembler (30_encoding.md R78, R79): one command per line, `MNEMONIC [operand]`, `;` starts a comment. -/

namespace Sys2Proof.Machine

/-- The command a well-formed line stands for; the pseudo-instructions take their address from the parameters (R79). -/
def assembleInstr (c : Config) : Asm → Instr
  | .init => .init
  | .sendByte n => .sendByte (BitVec.ofNat 8 n)
  | .recvByte => .recvByte
  | .readReg n => .readReg (BitVec.ofNat 16 n)
  | .readAngle => .readAngle
  | .readSpeed => .readSpeed
  | .readStatus => .readStatus
  | .readRegAngle => .readReg c.addrAngle
  | .readRegSpeed => .readReg c.addrSpeed
  | .readRegStatus => .readReg c.addrStatus

/-- The word a line emits (R78); an operand that does not fit is an assembly error (`none`) and is never truncated. -/
def assemble (c : Config) (a : Asm) : Option Word :=
  if a.wellFormed then some (encode (assembleInstr c a)) else none

/-- A digit's value, in bases up to 16. -/
def digitValue (ch : Char) : Option Nat :=
  let n := ch.toNat
  if 48 ≤ n ∧ n ≤ 57 then some (n - 48)
  else if 65 ≤ n ∧ n ≤ 70 then some (n - 55)
  else if 97 ≤ n ∧ n ≤ 102 then some (n - 87)
  else none

/-- Digits in a base, most significant first. -/
def digitsFrom (base acc : Nat) : List Char → Option Nat
  | [] => some acc
  | ch :: rest =>
    match digitValue ch with
    | none => none
    | some d => if d < base then digitsFrom base (acc * base + d) rest else none

/-- A number of at least one digit. -/
def digits (base : Nat) : List Char → Option Nat
  | [] => none
  | ch :: rest => digitsFrom base 0 (ch :: rest)

/-- An operand: hexadecimal after `0x`, binary after `0b`, else decimal (R78). -/
def operandValue : List Char → Option Nat
  | '0' :: 'x' :: rest => digits 16 rest
  | '0' :: 'b' :: rest => digits 2 rest
  | chars => digits 10 chars

/-- The text of a line up to its comment (R78). -/
def uncomment : List Char → List Char
  | [] => []
  | ch :: rest => if ch = ';' then [] else ch :: uncomment rest

/-- The blank-separated words of a text; `word` is the one being read, in reverse. -/
def wordsFrom (word : List Char) : List Char → List (List Char)
  | [] => if word.isEmpty then [] else [word.reverse]
  | ch :: rest =>
    if ch = ' ' ∨ ch = '\t' then
      if word.isEmpty then wordsFrom [] rest else word.reverse :: wordsFrom [] rest
    else wordsFrom (ch :: word) rest

/-- The line forms with no operand, by mnemonic (R78, R79). -/
def plainMnemonics : List (List Char × Asm) :=
  [("INIT".toList, .init), ("RECV_BYTE".toList, .recvByte), ("READ_ANGLE".toList, .readAngle),
   ("READ_SPEED".toList, .readSpeed), ("READ_STATUS".toList, .readStatus), ("READ_REG_ANGLE".toList, .readRegAngle),
   ("READ_REG_SPEED".toList, .readRegSpeed), ("READ_REG_STATUS".toList, .readRegStatus)]

/-- A line of one or two words. -/
def parseWords : List (List Char) → Option Asm
  | [m] => plainMnemonics.lookup m
  | [m, o] =>
    if m = "SEND_BYTE".toList then (operandValue o).map .sendByte
    else if m = "READ_REG".toList then (operandValue o).map .readReg
    else none
  | _ => none

/-- A line of text: `some none` for a blank line, `none` for an assembly error. -/
def parseLine (line : List Char) : Option (Option Asm) :=
  match wordsFrom [] (uncomment line) with
  | [] => some none
  | ws => (parseWords ws).map some

/-- The words a list of lines emits, or `none` where a line is an assembly error. -/
def assembleText (c : Config) : List (List Char) → Option (List Word)
  | [] => some []
  | line :: rest =>
    match parseLine line with
    | none => none
    | some none => assembleText c rest
    | some (some a) =>
      match assemble c a, assembleText c rest with
      | some w, some ws => some (w :: ws)
      | _, _ => none

end Sys2Proof.Machine
end

