-- ==== Sys2Proof/Machine/Ports.lean ====
section
/-! DEFINITION. The output ports of the block (10_state.md R20): what an observer outside reads. -/

namespace Sys2Proof.Machine

/-- A tri-state pin: the register's level while `PIN_OE = 1`, else undriven, Z, written `none` (R24). -/
def triState (oe b : Level) : Option Level := if oe then some b else none

/-- The `cs_n` port (R20, R24). -/
def State.csNPort (s : State) : Option Level := triState s.pinOe s.pinCsN

/-- The `sck` port (R20, R24). -/
def State.sckPort (s : State) : Option Level := triState s.pinOe s.pinSck

/-- The `sdo` port (R20, R24). -/
def State.sdoPort (s : State) : Option Level := triState s.pinOe s.pinSdo

/-- The `result` port (R20). -/
def State.resultPort (s : State) : Half := s.result

/-- The `angle` port (R20). -/
def State.anglePort (s : State) : Word := s.angle

/-- The `flags` port (R20, R27). -/
def State.flagsPort (s : State) : Half := s.flags

/-- The `cmd_ready` port, with `rst` at this level: 1 exactly when `BUSY = 0` and `rst = 0` (R37). -/
def State.cmdReady (s : State) (rst : Bool) : Bool := !s.busy && !rst

end Sys2Proof.Machine
end

