-- ==== Sys2Proof/Machine/Clock.lean ====
section
/-! DEFINITION. The clock level: one rising edge of `clk` (10_state.md R20). Here `BUSY` is seen at 1, a `Wait(T)` takes its cycles, the
word on the port matters at the accepting edge only, and `rst` may rise anywhere. The command level (Step.lean) runs a command in
one step; this level runs the same actions edge by edge. -/

namespace Sys2Proof.Machine

/-- The inputs at one rising edge (R20), and how many actions the implementation performs at it at most: 0 makes a wait or an event
take longer, more than 1 makes events take no cycle of their own (70_reset_and_hazards.md R243: "at least 0 and finite"). -/
structure EdgeIn where
  rst : Bool
  cmdValid : Bool
  cmdWord : Word
  quota : Nat
  deriving DecidableEq, Repr

/-- The next action may happen: a `Wait(T)` has lasted at least `T` cycles (00_scope.md R12). -/
def Micro.ready (s : State) : Micro → Bool
  | .wait d => decide (s.cfg.cycles d ≤ s.dly)
  | .set _ _ => true
  | .group _ => true
  | .sendBit => true
  | .sample => true
  | .fall => true
  | .load _ => true
  | .holdHigh => true

/-- Perform one action and move `SEQ` past it. -/
def advanceOne (a : Micro) (s : State) : State := { perform s a with seq := .running (s.seq.position + 1) }

/-- Perform up to this many actions, stopping before a wait that has not lasted long enough and at the program's end. -/
def advance : Nat → State → State
  | 0, s => s
  | n + 1, s =>
    match remaining s with
    | [] => s
    | a :: _ => if a.ready s then advance n (advanceOne a s) else s

/-- One edge of a running command: it completes at the first edge after its last event (40_command_dispatch.md R104), and until then
its sequencer goes on; `DLY` counts the edge. -/
def runningEdge (quota : Nat) (s : State) : State :=
  match remaining s with
  | [] => finish s
  | _ :: _ => advance quota { s with dly := s.dly + 1 }

/-- The accepting edge (R100 to R103): reject as reserved, reject before INIT, or start; nothing more happens at it. -/
def acceptingEdge (w : Word) (s : State) : State :=
  match decode w with
  | .reserved _ => rejectIllegal s
  | .command i => if mayStart i s then start i s else rejectNoinit s

/-- One rising edge of `clk`. `rst = 1` wins (60_exceptions.md R204); a word is accepted when `cmd_valid` and `cmd_ready` are 1 (R100). -/
def clockEdge (p : EdgeIn) (s : State) : State :=
  if p.rst then resetBlock s
  else if s.busy then runningEdge p.quota s
  else if p.cmdValid && s.cmdReady p.rst then acceptingEdge p.cmdWord s
  else s

/-- A sequence of rising edges, first edge first. -/
def clockRun (ps : List EdgeIn) (s : State) : State := ps.foldl (fun t p => clockEdge p t) s

end Sys2Proof.Machine
end

