-- ==== Sys2Proof/Safety.lean ====
section
/-! DEFINITION. The terms the claims are written in: the traces of the spec's pseudocode word for word, what an observer reads off a
trace, the value of a binary32 word, and the invariants of the two levels. -/

namespace Sys2Proof.Safety

open Sys2Proof.Machine

/-- The trace of one bit of `TxByte` (41_bit_transport.md R121). -/
def txBitTrace (b : Level) : List PinEvent :=
  [.set .sdo b, .wait .tLo, .set .sck true, .wait .tHi, .set .sck false]

/-- The trace of `TxByte(b)`: `for i = 7 downto 0` (R121). -/
def txTrace (b : Byte) : List PinEvent :=
  [7, 6, 5, 4, 3, 2, 1, 0].flatMap fun i => txBitTrace (b.getLsbD i)

/-- The trace of one bit of `RxByte` whose sample returns this level (R125). -/
def rxBitTrace (b : Level) : List PinEvent :=
  [.wait .tLo, .set .sck true, .wait .tHi, .sample b, .set .sck false]

/-- The trace of `RxByte()` whose samples, from the k-th draw of the state on, go to bits 7 down to 0 (R125). -/
def rxTrace (draw : Nat → Level) (k : Nat) : List PinEvent :=
  [7, 6, 5, 4, 3, 2, 1, 0].flatMap fun i => rxBitTrace (draw (k + (7 - i)))

/-- The trace of `Transact(a)` with these draws: the six protocol steps (42_register_channel.md R141). -/
def transactTrace (a : Half) (draw : Nat → Level) : List PinEvent :=
  [.set .csN false, .wait .tCss] ++ txTrace (a.extractLsb' 8 8) ++ txTrace (a.extractLsb' 0 8) ++ [.wait .tTurn] ++
    rxTrace draw 0 ++ rxTrace draw 8 ++ [.set .csN true]

/-- The trace of INIT (44_init.md R190). -/
def initTrace : List PinEvent :=
  [.group [(.oe, true), (.csN, true), (.sck, false), (.sdo, false)], .wait .tInit]

/-- `value` is the 16-bit word the first sixteen draws spell, the first draw bit 15 (42_register_channel.md R143). -/
def Spells (draw : Nat → Level) (value : Half) : Prop := ∀ k < 16, value.getLsbD (15 - k) = draw k

/-- The level a group leaves a pin at. -/
def groupLevel (pin : Pin) (before : Level) : List (Pin × Level) → Level
  | [] => before
  | (p, b) :: rest => groupLevel pin (if p = pin then b else before) rest

/-- The level of a pin output register after a trace, from its level before (00_scope.md R12). -/
def levelAfter (pin : Pin) (before : Level) : List PinEvent → Level
  | [] => before
  | .set p b :: rest => levelAfter pin (if p = pin then b else before) rest
  | .group sets :: rest => levelAfter pin (groupLevel pin before sets) rest
  | .wait _ :: rest => levelAfter pin before rest
  | .sample _ :: rest => levelAfter pin before rest

/-- The level of a pin at each rising edge of `sck` of a trace, in order. -/
def atRises (pin : Pin) (before : Level) : List PinEvent → List Level
  | [] => []
  | .set p b :: rest =>
    let now := if p = pin then b else before
    if p = .sck ∧ b = true then now :: atRises pin now rest else atRises pin now rest
  | .group sets :: rest => atRises pin (groupLevel pin before sets) rest
  | .wait _ :: rest => atRises pin before rest
  | .sample _ :: rest => atRises pin before rest

/-- The levels sampled in a trace, in order. -/
def samples (tr : List PinEvent) : List Level :=
  tr.filterMap fun e => match e with
    | .sample b => some b
    | .set _ _ => none
    | .group _ => none
    | .wait _ => none

/-- The number of times a trace sets a pin to a level. -/
def setsOf (pin : Pin) (b : Level) (tr : List PinEvent) : Nat := tr.count (.set pin b)

/-- The lower bound of a trace's duration in `clk` cycles: its waits (70_reset_and_hazards.md R243). -/
def minCycles (c : Config) (tr : List PinEvent) : Nat :=
  (tr.map fun e => match e with
    | .wait d => c.cycles d
    | .set _ _ => 0
    | .group _ => 0
    | .sample _ => 0).sum

/-- The rational value of a finite, normal or zero binary32 word: sign bit 31, exponent bits 30:23 biased by 127, fraction bits
22:0 (43_value_decoder.md R163). -/
def binary32Value (w : Word) : ℚ :=
  let magnitude : ℚ :=
    if w.extractLsb' 0 31 = 0 then 0
    else (2 ^ 23 + (w.extractLsb' 0 23).toNat : ℚ) * 2 ^ (((w.extractLsb' 23 8).toNat : ℤ) - 150)
  if w.getLsbD 31 then -magnitude else magnitude

/-- The host-visible registers and the pins are at the values of the reset table (10_state.md R35), hidden registers apart. -/
structure AtReset (s : State) : Prop where
  pinOe : s.pinOe = false
  pinCsN : s.pinCsN = true
  pinSck : s.pinSck = false
  pinSdo : s.pinSdo = false
  busy : s.busy = false
  initDone : s.initDone = false
  angleErr : s.angleErr = false
  errIllegal : s.errIllegal = false
  errNoinit : s.errNoinit = false
  result : s.result = 0x0000#16
  angle : s.angle = 0x00000000#32
  seq : s.seq = .idle

/-- The host-visible result registers agree in two states: `RESULT`, `ANGLE`, `ANGLE_ERR`. -/
structure SameResults (s t : State) : Prop where
  result : t.result = s.result
  angle : t.angle = s.angle
  angleErr : t.angleErr = s.angleErr

/-- The four pin output registers agree in two states. -/
structure SamePins (s t : State) : Prop where
  pinOe : t.pinOe = s.pinOe
  pinCsN : t.pinCsN = s.pinCsN
  pinSck : t.pinSck = s.pinSck
  pinSdo : t.pinSdo = s.pinSdo

/-- The sticky flags and `INIT_DONE` agree in two states. -/
structure SameStickyFlags (s t : State) : Prop where
  initDone : t.initDone = s.initDone
  errIllegal : t.errIllegal = s.errIllegal
  errNoinit : t.errNoinit = s.errNoinit

/-- The parameters and what the host does next agree, and this many draws were consumed. -/
structure Consumed (n : Nat) (s t : State) : Prop where
  cfg : t.cfg = s.cfg
  host : t.host = s.host
  sdi : t.sdi = s.sdi.drop n
  sampleNo : t.sampleNo = s.sampleNo + n

/-- The latched fields are those of this word (40_command_dispatch.md R101), and the block is idle after a command. -/
structure CompletedWith (w : Word) (t : State) : Prop where
  busy : t.busy = false
  seq : t.seq = .idle
  cmdOp : t.cmdOp = w.extractLsb' 28 4
  cmdOpnd : t.cmdOpnd = w.extractLsb' 0 16

/-- A transfer command may run: the block is idle after a completed INIT (40_command_dispatch.md R100, R102). -/
structure Ready (s : State) : Prop where
  busy : s.busy = false
  initDone : s.initDone = true

/-- What holds of an idle block in every run (10_state.md R24, R26, R32, R38; 43_value_decoder.md R162, R163). -/
structure IdleInv (s : State) : Prop where
  busy : s.busy = false
  seq : s.seq = .idle
  bitcnt : s.bitcnt ≤ 8
  csHigh : s.pinCsN = true
  sckLow : s.pinSck = false
  driven : s.pinOe = s.initDone
  untouched : s.initDone = false → s.pinSdo = false ∧ s.result = 0#16 ∧ s.angle = 0#32 ∧ s.angleErr = false
  angleError : s.angleErr = true ↔ s.angle = 0xBF800000#32

/-- The level a list of sequencer actions leaves `cs_n` or `sck` at. -/
def pinAfter (pin : Pin) (before : Level) (actions : List Micro) : Level :=
  actions.foldl (fun b a => match a with
    | .set p v => if p = pin then v else b
    | .group sets => groupLevel pin b sets
    | .fall => if pin = .sck then false else b
    | .wait _ => b
    | .sendBit => b
    | .sample => b
    | .load _ => b
    | .holdHigh => b) before

/-- `BITCNT` after a list of sequencer actions, where a byte transfer has begun in it. -/
def bitsAfter (actions : List Micro) : Option Nat :=
  actions.foldl (fun n a => match a with
    | .load _ => some 0
    | .fall => n.map (· + 1)
    | .set _ _ => n
    | .group _ => n
    | .wait _ => n
    | .sendBit => n
    | .sample => n
    | .holdHigh => n) none

/-- What holds of a running command at every clock edge: its opcode is one of the seven, `SEQ` stands inside its program, and
`cs_n`, `sck` and `BITCNT` are what the actions up to there leave (10_state.md R33, R34; 42_register_channel.md R144). -/
structure BusyInv (s : State) : Prop where
  busy : s.busy = true
  opcode : 1 ≤ s.cmdOp.toNat ∧ s.cmdOp.toNat ≤ 7
  inside : ∃ n, s.seq = .running n ∧ n ≤ (programOf s).length
  cs : s.pinCsN = pinAfter .csN true ((programOf s).take s.seq.position)
  sck : s.pinSck = pinAfter .sck false ((programOf s).take s.seq.position)
  bits : ∀ n, bitsAfter ((programOf s).take s.seq.position) = some n → s.bitcnt = n
  noBits : bitsAfter ((programOf s).take s.seq.position) = none → s.bitcnt ≤ 8
  initOp : s.initDone = false ↔ s.cmdOp = 0x1#4
  driven : s.cmdOp ≠ 0x1#4 ∨ 1 ≤ s.seq.position → s.pinOe = true
  angleError : s.angleErr = true ↔ s.angle = 0xBF800000#32
  untouched : s.pinOe = false → s.result = 0#16 ∧ s.angle = 0#32 ∧ s.angleErr = false

/-- The invariant of the clock level. -/
def ClockInv (s : State) : Prop := IdleInv s ∨ BusyInv s

end Sys2Proof.Safety
end

