-- ==== Sys2Proof/Certificates/Slice0/Obligations.lean ====
section
/-! DEFINITION. The statements for the provers. Each docstring names the rule of spec/ it formalises. -/

open Sys2Proof Sys2Proof.Machine Sys2Proof.Safety

/-! ## Encoding -/

/-- Decoding an encoded command gives it back, with every operand at every value, and encoding a decoded command gives the word back
(30_encoding.md R71 to R73). -/
def Obligations.DecodeEncodeAgree : Prop :=
  (∀ i : Instr, i.wellFormed = true → decode (encode i) = .command i) ∧
    ∀ (w : Word) (i : Instr), decode w = .command i → encode i = w

/-- A word is legal exactly when it matches one row of the match and mask table, which is the formula of R75, which is what the decoder
accepts (30_encoding.md R75). -/
def Obligations.LegalWordsAreTheTable : Prop :=
  ∀ w : Word,
    let formula :=
      (w.extractLsb' 28 4 ∈ [0x1#4, 0x3#4, 0x5#4, 0x6#4, 0x7#4] ∧ w.extractLsb' 0 28 = 0) ∨
        (w.extractLsb' 28 4 = 0x2#4 ∧ w.extractLsb' 8 20 = 0) ∨ (w.extractLsb' 28 4 = 0x4#4 ∧ w.extractLsb' 16 12 = 0)
    (legal w = true ↔ ∃ r ∈ opRows, r.selects w = true) ∧ (legal w = true ↔ formula) ∧
      (legal w = true ↔ ∃ i, decode w = .command i)

/-- A word selects at most one row, and the command decoded is that row's (30_encoding.md R72). -/
def Obligations.TableSelectsTheDecodedCommand : Prop :=
  ∀ (w : Word) (r : OpRow), r ∈ opRows → r.selects w = true →
    (∃ i, decode w = .command i ∧ i.opcode = r.op) ∧ ∀ r' ∈ opRows, r'.selects w = true → r' = r

/-- The three cases of a reserved word are told apart by name (30_encoding.md R76, first half). -/
def Obligations.ReservedWordsByCase : Prop :=
  ∀ w : Word,
    (decode w = .reserved .opcodeZero ↔ w.toNat / 2 ^ 28 = 0) ∧
    (decode w = .reserved .opcodeHigh ↔ 8 ≤ w.toNat / 2 ^ 28) ∧
    (decode w = .reserved .mustBeZero ↔
      (w.toNat / 2 ^ 28 ∈ [1, 3, 5, 6, 7] ∧ w.toNat % 2 ^ 28 ≠ 0) ∨
      (w.toNat / 2 ^ 28 = 2 ∧ w.toNat % 2 ^ 28 / 2 ^ 8 ≠ 0) ∨
      (w.toNat / 2 ^ 28 = 4 ∧ w.toNat % 2 ^ 28 / 2 ^ 16 ≠ 0))

/-- Words written out from the table of R72 decode to the commands they stand for (95_test_vectors.md V-E). -/
def Obligations.WrittenWordsDecode : Prop :=
  decode 0b00010000000000000000000000000000#32 = .command .init ∧
  decode 0b00100000000000000000000010110010#32 = .command (.sendByte 0xB2#8) ∧
  decode 0b00110000000000000000000000000000#32 = .command .recvByte ∧
  decode 0b01000000000000000000000000100001#32 = .command (.readReg 0x0021#16) ∧
  decode 0b01010000000000000000000000000000#32 = .command .readAngle ∧
  decode 0b01100000000000000000000000000000#32 = .command .readSpeed ∧
  decode 0b01110000000000000000000000000000#32 = .command .readStatus ∧
  decode 0x00000000#32 = .reserved .opcodeZero ∧
  decode 0x40010000#32 = .reserved .mustBeZero

/-- The assembler emits `match | operand`, refuses an operand that does not fit, and its pseudo-instructions are READ_REG at the
parameter codes (30_encoding.md R78, R79). -/
def Obligations.AssemblerEmitsMatchOrOperand : Prop :=
  ∀ c : Config,
    (∀ n : Nat, n < 256 → assemble c (.sendByte n) = some (0x20000000#32 ||| BitVec.ofNat 32 n)) ∧
    (∀ n : Nat, 256 ≤ n → assemble c (.sendByte n) = none) ∧
    (∀ n : Nat, n < 65536 → assemble c (.readReg n) = some (0x40000000#32 ||| BitVec.ofNat 32 n)) ∧
    (∀ n : Nat, 65536 ≤ n → assemble c (.readReg n) = none) ∧
    assemble c .init = some 0x10000000#32 ∧ assemble c .recvByte = some 0x30000000#32 ∧
    assemble c .readAngle = some 0x50000000#32 ∧ assemble c .readSpeed = some 0x60000000#32 ∧
    assemble c .readStatus = some 0x70000000#32 ∧
    assemble c .readRegAngle = assemble c (.readReg c.addrAngle.toNat) ∧
    assemble c .readRegSpeed = assemble c (.readReg c.addrSpeed.toNat) ∧
    assemble c .readRegStatus = assemble c (.readReg c.addrStatus.toNat)

/-! ## Step, acceptance and rejection -/

/-- A step runs the decoded command: the word the host presents to an idle block is taken off the host's list and the step is `exec`
of the command it decodes to (40_command_dispatch.md R102, R108). -/
def Obligations.StepRunsTheDecodedCommand : Prop :=
  ∀ (s : State) (w : Word) (i : Instr) (rest : List HostEvent),
    s.cfg.wellFormed = true → s.busy = false → s.host = .command w :: rest → decode w = .command i →
    step s = exec i { s with host := rest }

/-- A word placed at the port is run by the very next step (40_command_dispatch.md R100, R108). -/
def Obligations.PlacedWordRunsNext : Prop :=
  ∀ (s : State) (w : Nat) (i : Instr),
    s.cfg.wellFormed = true → s.busy = false → s.seq = .idle → decodeTableWord 32 w = some i →
    step (s.withFetchWord 32 w) = exec i s

/-- A step answers a next state on every well-formed configuration, whatever the host and the sensor do, and refuses exactly a
configuration with a timing parameter of 0 (40_command_dispatch.md R108, R109; 00_scope.md R8). -/
def Obligations.StepRefusesOnlyZeroTiming : Prop :=
  ∀ s : State,
    ((∃ t, step s = .next t) ↔
      1 ≤ s.cfg.tInit ∧ 1 ≤ s.cfg.tCss ∧ 1 ≤ s.cfg.tTurn ∧ 1 ≤ s.cfg.tLo ∧ 1 ≤ s.cfg.tHi) ∧
    ((¬ ∃ t, step s = .next t) → step s = .refused .illFormedConfig)

/-- The dispatcher's checks in their order, at the command level and at the accepting edge: a reserved word sets `ERR_ILLEGAL` and nothing
else, even before INIT; then a legal word other than INIT while `INIT_DONE = 0` sets `ERR_NOINIT` and nothing else; else the command
starts: the accepting edge latches `CMD_OP` and `CMD_OPND` from the word (R101), sets `BUSY` (R103), and for INIT alone clears
`ERR_ILLEGAL`, `ERR_NOINIT` and `INIT_DONE` at that same edge (R190), leaving pins and results as they were. The word is consumed in each
case (40_command_dispatch.md R101 to R103). The model's own here: that "nothing else" takes in the hidden latch of a rejected word (log 7),
the empty trace as the record of a rejection and of a start (log 4), and the host's list (log 3). -/
def Obligations.AcceptanceChecksInOrder : Prop :=
  ∀ (s : State) (p : EdgeIn) (rest : List HostEvent),
    s.cfg.wellFormed = true → s.busy = false → p.rst = false → p.cmdValid = true → s.host = .command p.cmdWord :: rest →
    (legal p.cmdWord = false →
      step s = .next { s with host := rest, errIllegal := true, trace := [] } ∧
      clockEdge p s = { s with errIllegal := true, trace := [] }) ∧
    (legal p.cmdWord = true → p.cmdWord.extractLsb' 28 4 ≠ 0x1#4 → s.initDone = false →
      step s = .next { s with host := rest, errNoinit := true, trace := [] } ∧
      clockEdge p s = { s with errNoinit := true, trace := [] }) ∧
    (legal p.cmdWord = true → p.cmdWord.extractLsb' 28 4 = 0x1#4 ∨ s.initDone = true →
      (∃ i, decode p.cmdWord = .command i ∧ step s = exec i { s with host := rest }) ∧
      (clockEdge p s).busy = true ∧
      (clockEdge p s).cmdOp = p.cmdWord.extractLsb' 28 4 ∧ (clockEdge p s).cmdOpnd = p.cmdWord.extractLsb' 0 16 ∧
      (p.cmdWord.extractLsb' 28 4 = 0x1#4 →
        (clockEdge p s).errIllegal = false ∧ (clockEdge p s).errNoinit = false ∧ (clockEdge p s).initDone = false) ∧
      (p.cmdWord.extractLsb' 28 4 ≠ 0x1#4 → SameStickyFlags s (clockEdge p s)) ∧
      SamePins s (clockEdge p s) ∧ SameResults s (clockEdge p s) ∧ (clockEdge p s).trace = [])

/-- Before INIT every transfer command is turned away with `ERR_NOINIT` and none of its effect (10_state.md R26, R30;
40_command_dispatch.md R102; 60_exceptions.md R205). That the hidden latch is unchanged too is log 7 (DEDUCED), and the empty trace is the
model's record of R108 (log 4). -/
def Obligations.TransfersBeforeInitAreRejected : Prop :=
  ∀ (i : Instr) (s : State), i ≠ .init → s.busy = false → s.initDone = false →
    exec i s = .next { s with errNoinit := true, trace := [] }

/-- A word presented while a command runs waits: it is neither lost nor merged, and `exec` of it changes nothing
(40_command_dispatch.md R100; 70_reset_and_hazards.md R236). -/
def Obligations.WordWaitsWhileBusy : Prop :=
  ∀ (i : Instr) (s : State), s.busy = true →
    exec i s = .next s ∧
    ∀ (w : Word) (rest : List HostEvent), s.cfg.wellFormed = true → s.host = .command w :: rest →
      ∃ t, step s = .next t ∧ t.host = s.host ∧ t.busy = false ∧ t.seq = .idle

/-- The sticky errors are cleared by nothing but the acceptance of INIT and reset (10_state.md R29, R30). -/
def Obligations.StickyErrorsClearOnlyByInitOrReset : Prop :=
  ∀ s t : State, step s = .next t →
    (s.errIllegal = true ∧ t.errIllegal = false) ∨ (s.errNoinit = true ∧ t.errNoinit = false) →
    (∃ rest, s.host = .reset :: rest) ∨
    (∃ w n rest, s.busy = false ∧ s.host = .resetDuring w n :: rest) ∨
    (∃ w rest, s.busy = false ∧ s.host = .command w :: rest ∧ decode w = .command .init)

/-- `ANGLE` and `ANGLE_ERR` are changed by nothing but a READ_ANGLE and reset (10_state.md R28, R32). -/
def Obligations.AngleChangesOnlyByReadAngleOrReset : Prop :=
  ∀ s t : State, step s = .next t → t.angle ≠ s.angle ∨ t.angleErr ≠ s.angleErr →
    (∃ rest, s.host = .reset :: rest) ∨
    (∃ w n rest, s.busy = false ∧ s.host = .resetDuring w n :: rest) ∨
    (∃ w rest, s.busy = false ∧ s.host = .command w :: rest ∧ decode w = .command .readAngle) ∨
    (s.busy = true ∧ s.cmdOp = 0x5#4)

/-- INIT alone drives the pins and reset alone releases them (10_state.md R24; 44_init.md R190). -/
def Obligations.OnlyInitDrivesOnlyResetReleases : Prop :=
  ∀ s t : State, step s = .next t →
    (s.pinOe = false → t.pinOe = true →
      (∃ w rest, s.busy = false ∧ s.host = .command w :: rest ∧ decode w = .command .init) ∨ (s.busy = true ∧ s.cmdOp = 0x1#4)) ∧
    (s.pinOe = true → t.pinOe = false →
      (∃ rest, s.host = .reset :: rest) ∨ (∃ w n rest, s.busy = false ∧ s.host = .resetDuring w n :: rest))

/-- Each command writes the registers its row of R36's table names and no others, and a rejected word sets one flag
(10_state.md R36). Latch, sequencer and trace are not in that table. -/
def Obligations.CommandsWriteOnlyTheirRow : Prop :=
  (∀ s t : State, s.busy = false → exec .init s = .next t → SameResults s t) ∧
  (∀ (b : Byte) (s t : State), Ready s → exec (.sendByte b) s = .next t →
    t.pinOe = s.pinOe ∧ t.pinCsN = s.pinCsN ∧ SameResults s t ∧ SameStickyFlags s t) ∧
  (∀ s t : State, Ready s → exec .recvByte s = .next t →
    t.pinOe = s.pinOe ∧ t.pinCsN = s.pinCsN ∧ t.pinSdo = s.pinSdo ∧ t.angle = s.angle ∧ t.angleErr = s.angleErr ∧
      SameStickyFlags s t) ∧
  (∀ (i : Instr) (s t : State), ((∃ a, i = .readReg a) ∨ i = .readSpeed ∨ i = .readStatus) → Ready s → exec i s = .next t →
    t.pinOe = s.pinOe ∧ t.angle = s.angle ∧ t.angleErr = s.angleErr ∧ SameStickyFlags s t) ∧
  (∀ s t : State, Ready s → exec .readAngle s = .next t → t.pinOe = s.pinOe ∧ SameStickyFlags s t) ∧
  (∀ (w : Word) (s t : State), s.busy = false → (legal w = false ∨ (w.extractLsb' 28 4 ≠ 0x1#4 ∧ s.initDone = false)) →
    present w s = .next t →
    SamePins s t ∧ SameResults s t ∧ t.initDone = s.initDone ∧ t.busy = s.busy ∧
      ((t.errIllegal = true ∧ t.errNoinit = s.errNoinit) ∨ (t.errNoinit = true ∧ t.errIllegal = s.errIllegal)))

/-! ## What each command does -/

/-- INIT, first or repeated: one grouped event with the idle levels, the settle wait, the two sticky errors cleared, `INIT_DONE` set,
the results left alone (44_init.md R190, R191). -/
def Obligations.InitDrivesTheIdleLevels : Prop :=
  ∀ s : State, s.busy = false →
    ∃ t, exec .init s = .next t ∧ t.trace = initTrace ∧
      t.pinOe = true ∧ t.pinCsN = true ∧ t.pinSck = false ∧ t.pinSdo = false ∧
      t.initDone = true ∧ t.errIllegal = false ∧ t.errNoinit = false ∧
      SameResults s t ∧ Consumed 0 s t ∧ CompletedWith 0x10000000#32 t

/-- SEND_BYTE drives the forty events of `TxByte`, bit 7 first, leaves `sck` at 0 and `sdo` at bit 0, takes no sample and changes nothing
else the host sees (41_bit_transport.md R121). -/
def Obligations.SendByteShiftsOutMsbFirst : Prop :=
  ∀ (b : Byte) (s : State), Ready s →
    ∃ t, exec (.sendByte b) s = .next t ∧ t.trace = txTrace b ∧ t.trace.length = 40 ∧
      t.pinSck = false ∧ t.pinSdo = b.getLsbD 0 ∧ t.pinOe = s.pinOe ∧ t.pinCsN = s.pinCsN ∧
      SameResults s t ∧ SameStickyFlags s t ∧ Consumed 0 s t ∧ CompletedWith (0x20000000#32 ||| b.setWidth 32) t

/-- RECV_BYTE drives the forty events of `RxByte` with eight samples, bit 7 first, `sdo` and `cs_n` left alone, and writes the byte
zero-extended (41_bit_transport.md R125, R126). -/
def Obligations.RecvByteShiftsInMsbFirst : Prop :=
  ∀ s : State, Ready s →
    ∃ t, exec .recvByte s = .next t ∧ t.trace = rxTrace s.draw 0 ∧ t.trace.length = 40 ∧
      samples t.trace = (List.range 8).map s.draw ∧
      (∀ k < 8, t.result.getLsbD (7 - k) = s.draw k) ∧ (∀ j, 8 ≤ j → t.result.getLsbD j = false) ∧
      t.pinSck = false ∧ t.pinSdo = s.pinSdo ∧ t.pinOe = s.pinOe ∧ t.pinCsN = s.pinCsN ∧
      t.angle = s.angle ∧ t.angleErr = s.angleErr ∧ SameStickyFlags s t ∧ Consumed 8 s t ∧ CompletedWith 0x30000000#32 t

/-- READ_REG runs one transaction at its address, 164 events and 16 samples, and writes the word the draws spell
(42_register_channel.md R141, R142). -/
def Obligations.ReadRegRunsOneTransaction : Prop :=
  ∀ (a : Half) (s : State), Ready s →
    ∃ t, exec (.readReg a) s = .next t ∧ t.trace = transactTrace a s.draw ∧ t.trace.length = 164 ∧
      (samples t.trace).length = 16 ∧ Spells s.draw t.result ∧
      t.pinCsN = true ∧ t.pinSck = false ∧ t.pinSdo = a.getLsbD 0 ∧ t.pinOe = s.pinOe ∧
      t.angle = s.angle ∧ t.angleErr = s.angleErr ∧ SameStickyFlags s t ∧ Consumed 16 s t ∧
      CompletedWith (0x40000000#32 ||| a.setWidth 32) t

/-- READ_ANGLE runs one transaction at `ADDR_ANGLE`; `RESULT` is the raw word; on the sentinel `ANGLE_ERR` is 1 and `ANGLE` is -1.0, else
`ANGLE_ERR` is 0 and `ANGLE` is exactly `code * 360 / 32768`, with sign bit 0 (43_value_decoder.md R161, R162). -/
def Obligations.ReadAngleDecodesExactly : Prop :=
  ∀ s : State, Ready s →
    ∃ t, exec .readAngle s = .next t ∧ t.trace = transactTrace s.cfg.addrAngle s.draw ∧ Spells s.draw t.result ∧
      (t.angleErr = true ↔ t.result = 0xFFFF#16) ∧
      (t.result = 0xFFFF#16 → t.angle = 0xBF800000#32) ∧
      (t.result ≠ 0xFFFF#16 →
        t.angle.getLsbD 31 = false ∧ binary32Value t.angle = ((t.result.toNat % 2 ^ 15 : ℕ) : ℚ) * 360 / 32768) ∧
      t.pinCsN = true ∧ t.pinSck = false ∧ t.pinSdo = s.cfg.addrAngle.getLsbD 0 ∧ t.pinOe = s.pinOe ∧
      SameStickyFlags s t ∧ Consumed 16 s t ∧ CompletedWith 0x50000000#32 t

/-- READ_SPEED runs one transaction at `ADDR_SPEED` and writes the low 15 bits of the raw word, bit 14 copied into bit 15, unscaled
(43_value_decoder.md R165, R167). -/
def Obligations.ReadSpeedSignExtends : Prop :=
  ∀ (s : State) (raw : Half), Ready s → Spells s.draw raw →
    ∃ t, exec .readSpeed s = .next t ∧ t.trace = transactTrace s.cfg.addrSpeed s.draw ∧
      (∀ j < 15, t.result.getLsbD j = raw.getLsbD j) ∧ t.result.getLsbD 15 = raw.getLsbD 14 ∧
      t.pinCsN = true ∧ t.pinSck = false ∧ t.pinSdo = s.cfg.addrSpeed.getLsbD 0 ∧ t.pinOe = s.pinOe ∧
      t.angle = s.angle ∧ t.angleErr = s.angleErr ∧ SameStickyFlags s t ∧ Consumed 16 s t ∧ CompletedWith 0x60000000#32 t

/-- READ_STATUS runs one transaction at `ADDR_STATUS` and passes every value through (43_value_decoder.md R168). -/
def Obligations.ReadStatusPassesThrough : Prop :=
  ∀ s : State, Ready s →
    ∃ t, exec .readStatus s = .next t ∧ t.trace = transactTrace s.cfg.addrStatus s.draw ∧ Spells s.draw t.result ∧
      t.pinCsN = true ∧ t.pinSck = false ∧ t.pinSdo = s.cfg.addrStatus.getLsbD 0 ∧ t.pinOe = s.pinOe ∧
      t.angle = s.angle ∧ t.angleErr = s.angleErr ∧ SameStickyFlags s t ∧ Consumed 16 s t ∧ CompletedWith 0x70000000#32 t

/-- READ_STATUS is identical in effect to READ_REG `ADDR_STATUS`, in every state: only the hidden latch tells them apart
(43_value_decoder.md R168; 30_encoding.md R79). -/
def Obligations.ReadStatusIsReadRegAtStatus : Prop :=
  ∀ s : State, ∃ t u, exec .readStatus s = .next t ∧ exec (.readReg s.cfg.addrStatus) s = .next u ∧
    t = { u with cmdOp := t.cmdOp, cmdOpnd := t.cmdOpnd }

/-- The pin registers after a command are the levels its trace sets, from their levels before: an output holds the last level set on it
(00_scope.md R12). -/
def Obligations.PinsHoldTheLastLevelOfTheTrace : Prop :=
  ∀ (i : Instr) (s : State), s.busy = false → i = .init ∨ s.initDone = true →
    ∃ t, exec i s = .next t ∧
      t.pinOe = levelAfter .oe s.pinOe t.trace ∧ t.pinCsN = levelAfter .csN s.pinCsN t.trace ∧
      t.pinSck = levelAfter .sck s.pinSck t.trace ∧ t.pinSdo = levelAfter .sdo s.pinSdo t.trace

/-! ## The transaction and the transport on the wire -/

/-- Framing: at the sixteen send pulses `sdo` carries `a[15]` down to `a[0]`, high byte first; then two bytes are received; the sixteen
draws spell the value, `d0` as bit 15 (42_register_channel.md R143). -/
def Obligations.TransactionFramesEveryAddress : Prop :=
  ∀ (a : Half) (s : State), Ready s →
    ∃ t, exec (.readReg a) s = .next t ∧
      (∃ front back, t.trace = front ++ txTrace (a.extractLsb' 8 8) ++ txTrace (a.extractLsb' 0 8) ++ back ∧
        samples back = (List.range 16).map s.draw ∧ setsOf .sck true back = 16 ∧ setsOf .sck true front = 0) ∧
      (atRises .sdo s.pinSdo t.trace).take 16 = (List.range 16).map (fun k => a.getLsbD (15 - k)) ∧
      (∀ k < 16, t.result.getLsbD (15 - k) = s.draw k) ∧
      (∀ b0 b1 : Byte, (∀ k < 8, b0.getLsbD (7 - k) = s.draw k) → (∀ k < 8, b1.getLsbD (7 - k) = s.draw (8 + k)) →
        t.result = (b0.setWidth 16 <<< 8) ||| b1.setWidth 16)

/-- Chip-select discipline, for each of the four transaction commands: `cs_n` falls once, before the first pulse, rises once, after the
last, and all 32 pulses happen while it is 0 (42_register_channel.md R144). -/
def Obligations.ChipSelectBracketsEveryTransaction : Prop :=
  ∀ (i : Instr) (s : State), ((∃ a, i = .readReg a) ∨ i = .readAngle ∨ i = .readSpeed ∨ i = .readStatus) → Ready s →
    ∃ t, exec i s = .next t ∧
      setsOf .csN false t.trace = 1 ∧ setsOf .csN true t.trace = 1 ∧
      t.trace.head? = some (.set .csN false) ∧ t.trace.getLast? = some (.set .csN true) ∧
      setsOf .sck true t.trace = 32 ∧ atRises .csN s.pinCsN t.trace = List.replicate 32 false

/-- Loopback: RECV_BYTE returns the byte a SEND_BYTE put on `sdo`, if the draws copy the bits at its rising edges, in order
(41_bit_transport.md R127). -/
def Obligations.LoopbackReturnsTheByte : Prop :=
  ∀ (b : Byte) (s t : State), Ready s → exec (.sendByte b) s = .next t →
    (List.range 8).map t.draw = atRises .sdo s.pinSdo t.trace →
    ∃ u, exec .recvByte t = .next u ∧ u.result = b.setWidth 16

/-- A read returns what its draws spell and nothing else, for each of the four reads: READ_REG, READ_ANGLE and READ_STATUS the word itself,
READ_SPEED its sign-extended code; and two states with equal draws give the same result, READ_ANGLE the same angle and flag, and, where the
same address is sent, the same trace (20_memory.md R58; 95_test_vectors.md S6). -/
def Obligations.ResultDependsOnTheDrawsOnly : Prop :=
  ∀ (i : Instr) (s s' : State), ((∃ a, i = .readReg a) ∨ i = .readAngle ∨ i = .readSpeed ∨ i = .readStatus) →
    Ready s → Ready s' → (∀ k < 16, s.draw k = s'.draw k) →
    ∃ t t', exec i s = .next t ∧ exec i s' = .next t' ∧ t.result = t'.result ∧
      (i ≠ .readSpeed → Spells s.draw t.result) ∧
      (i = .readSpeed → ∀ raw, Spells s.draw raw →
        (∀ j < 15, t.result.getLsbD j = raw.getLsbD j) ∧ t.result.getLsbD 15 = raw.getLsbD 14) ∧
      (i = .readAngle → t.angle = t'.angle ∧ t.angleErr = t'.angleErr) ∧
      ((∃ a, i = .readReg a) ∨ s.cfg = s'.cfg → t.trace = t'.trace)

/-- The waits, pulses and samples of each command's trace (70_reset_and_hazards.md R243). -/
def Obligations.TraceBoundsOfEveryCommand : Prop :=
  ∀ (i : Instr) (s : State), s.busy = false → i = .init ∨ s.initDone = true →
    ∃ t, exec i s = .next t ∧
      match i with
      | .init => minCycles s.cfg t.trace = s.cfg.tInit ∧ setsOf .sck true t.trace = 0 ∧ (samples t.trace).length = 0
      | .sendByte _ =>
        minCycles s.cfg t.trace = 8 * (s.cfg.tLo + s.cfg.tHi) ∧ setsOf .sck true t.trace = 8 ∧ (samples t.trace).length = 0
      | .recvByte =>
        minCycles s.cfg t.trace = 8 * (s.cfg.tLo + s.cfg.tHi) ∧ setsOf .sck true t.trace = 8 ∧ (samples t.trace).length = 8
      | .readReg _ | .readAngle | .readSpeed | .readStatus =>
        minCycles s.cfg t.trace = s.cfg.tCss + s.cfg.tTurn + 32 * (s.cfg.tLo + s.cfg.tHi) ∧
          setsOf .sck true t.trace = 32 ∧ (samples t.trace).length = 16

/-! ## The value decoder -/

/-- `F32Angle` is exact: the binary32 word of `code * 360 / 32768 = code * 45 / 4096`, built with sign 0, exponent `k - 15 + 127` and the
fraction that keeps every bit; code 0 gives +0.0; 0xBF800000 is -1.0 (43_value_decoder.md R163). -/
def Obligations.AngleEncodingIsExact : Prop :=
  binary32Value 0xBF800000#32 = -1 ∧
  ∀ code : BitVec 15,
    binary32Value (f32Angle code) = (code.toNat : ℚ) * 360 / 32768 ∧
    binary32Value (f32Angle code) = (code.toNat : ℚ) * 45 / 4096 ∧
    code.toNat * 360 ≤ 11796120 ∧
    (code.toNat = 0 → f32Angle code = 0x00000000#32) ∧
    (code.toNat ≠ 0 → ∃ k, 8 ≤ k ∧ k ≤ 23 ∧ 2 ^ k ≤ code.toNat * 360 ∧ code.toNat * 360 < 2 ^ (k + 1) ∧
      f32Angle code =
        0#1 ++ BitVec.ofNat 8 (k + 127 - 15) ++ BitVec.ofNat 23 (code.toNat * 360 * 2 ^ (23 - k) - 2 ^ 23) ∧
      code.toNat * 360 * 2 ^ (23 - k) - 2 ^ 23 < 2 ^ 23)

/-- Every non-sentinel angle is in `[0, 360)`, from 0 to 359.989013671875 in steps of 360/32768; the error value is outside
(43_value_decoder.md R164). -/
def Obligations.AnglesAreBelowAFullTurn : Prop :=
  (∀ raw : Half, raw ≠ 0xFFFF#16 → 0 ≤ binary32Value (angleOf raw) ∧ binary32Value (angleOf raw) < 360 ∧
    binary32Value (angleOf raw) ≤ 359.989013671875) ∧
  binary32Value (angleOf 0x0000#16) = 0 ∧ binary32Value (angleOf 0x7FFF#16) = 359.989013671875 ∧
  (∀ code : Nat, code + 1 < 2 ^ 15 →
    binary32Value (angleOf (BitVec.ofNat 16 (code + 1))) - binary32Value (angleOf (BitVec.ofNat 16 code)) = 360 / 32768) ∧
  binary32Value (angleOf 0xFFFF#16) = -1

/-- The speed's sign extension, as patterns and as signed values, with its range (43_value_decoder.md R166). -/
def Obligations.SpeedIsTheSignedCode : Prop :=
  ∀ raw : Half,
    (raw.getLsbD 14 = true →
      speedOf raw = (raw &&& 0x7FFF#16) ||| 0x8000#16 ∧ (speedOf raw).toInt = -(0x8000 - ((raw &&& 0x7FFF#16).toNat : ℤ))) ∧
    (raw.getLsbD 14 = false →
      speedOf raw = raw &&& 0x7FFF#16 ∧ (speedOf raw).toInt = ((raw &&& 0x7FFF#16).toNat : ℤ)) ∧
    -16384 ≤ (speedOf raw).toInt ∧ (speedOf raw).toInt ≤ 16383

/-- Only READ_ANGLE tests for 0xFFFF: the three other reads set no flag whatever they read, and return 0xFFFF as it is, while READ_ANGLE
sets `ANGLE_ERR` exactly when the draws spell 0xFFFF (43_value_decoder.md R169). -/
def Obligations.OnlyReadAngleTestsTheSentinel : Prop :=
  ∀ s : State, Ready s →
    (∀ i : Instr, (∃ a, i = .readReg a) ∨ i = .readSpeed ∨ i = .readStatus →
      ∃ t, exec i s = .next t ∧ t.flags = s.flags ∧ (Spells s.draw 0xFFFF#16 → t.result = 0xFFFF#16)) ∧
    ∃ t, exec .readAngle s = .next t ∧ (t.flags.getLsbD 2 = true ↔ Spells s.draw 0xFFFF#16)

/-- The `FLAGS` layout (10_state.md R27). -/
def Obligations.FlagsLayout : Prop :=
  ∀ s : State,
    s.flags.getLsbD 0 = s.busy ∧ s.flags.getLsbD 1 = s.initDone ∧ s.flags.getLsbD 2 = s.angleErr ∧
    s.flags.getLsbD 3 = s.errIllegal ∧ s.flags.getLsbD 4 = s.errNoinit ∧ ∀ j, 5 ≤ j → s.flags.getLsbD j = false

/-! ## Reset -/

/-- The reset table: the values after reset, and those after the INIT that follows (10_state.md R35). Registers the table calls
unspecified are not in it. -/
def Obligations.ResetTable : Prop :=
  AtReset State.reset ∧
  ∃ t, exec .init State.reset = .next t ∧
    t.pinOe = true ∧ t.pinCsN = true ∧ t.pinSck = false ∧ t.pinSdo = false ∧ t.busy = false ∧ t.initDone = true ∧
    t.errIllegal = false ∧ t.errNoinit = false ∧ SameResults State.reset t ∧ t.seq = .idle ∧
    t.cmdOp = 0x1#4 ∧ t.cmdOpnd = 0x0000#16 ∧ t.flags = 0x0002#16

/-- At every edge with `rst = 1`, from every state: the reset values, the three pins undriven, the running command abandoned with no
further event, and no command accepted (70_reset_and_hazards.md R230). -/
def Obligations.ResetEdgeFromEveryState : Prop :=
  ∀ (s : State) (p : EdgeIn), p.rst = true →
    AtReset (clockEdge p s) ∧
    (clockEdge p s).csNPort = none ∧ (clockEdge p s).sckPort = none ∧ (clockEdge p s).sdoPort = none ∧
    (clockEdge p s).trace = s.trace ∧ s.cmdReady p.rst = false

/-- The Reset step of the command level: from every state, running or not, `rst = 1` wins (40_command_dispatch.md R108;
60_exceptions.md R204). -/
def Obligations.ResetStepWins : Prop :=
  ∀ (s : State) (rest : List HostEvent), s.cfg.wellFormed = true → s.host = .reset :: rest →
    ∃ t, step s = .next t ∧ AtReset t ∧ t.flags = 0x0000#16 ∧ t.csNPort = none ∧ t.sckPort = none ∧ t.sdoPort = none ∧
      t.cfg = s.cfg ∧ t.host = rest

/-- A reset in the middle of a command: the wire saw its first events and no more, no result is written, and the draws taken are those of
the samples that happened (70_reset_and_hazards.md R230, R231). The model's own here: the cut falls between two events, a wait it cuts short
counts as not happened, and an n past the trace's end gives the whole trace with no completion (log 13); the cut command's events stay on
record (log 4). -/
def Obligations.ResetCutsTheTrace : Prop :=
  ∀ (s : State) (w : Word) (n : Nat) (rest : List HostEvent) (i : Instr) (u : State),
    s.cfg.wellFormed = true → s.busy = false → s.host = .resetDuring w n :: rest → decode w = .command i →
    exec i { s with host := rest } = .next u →
    ∃ t, step s = .next t ∧ AtReset t ∧ t.trace = u.trace.take n ∧ t.host = rest ∧
      t.sampleNo = s.sampleNo + (samples t.trace).length

/-! ## Invariants of the command level -/

/-- The idle invariant holds after reset (10_state.md R35, R38). -/
def Obligations.IdleInvAtReset : Prop := IdleInv State.reset

/-- Every step keeps the idle invariant: idle again, `cs_n` high, `sck` low, the pins driven exactly when INIT is done, `ANGLE_ERR` exactly
when `ANGLE` is -1.0 (10_state.md R24, R26, R28, R32, R38). That `BITCNT` stays at most 8 rests on the model's counting of it (log 10). -/
def Obligations.StepKeepsIdleInv : Prop :=
  ∀ s t : State, IdleInv s → step s = .next t → IdleInv t

/-! ## The clock level -/

/-- Every edge keeps the clock-level invariant, whatever the inputs and the reset: in a running command `cs_n`, `sck` and `BITCNT` are what
its program up to `SEQ` leaves (10_state.md R33, R34, R38; 42_register_channel.md R144). The clauses on `BITCNT` and `SEQ` are the model's: when
`BITCNT` counts, and that `SEQ` counts actions of which two kinds drive no event (log 10). -/
def Obligations.ClockEdgeKeepsClockInv : Prop :=
  ∀ (s : State) (p : EdgeIn), ClockInv s → ClockInv (clockEdge p s)

/-- The handshake: `cmd_ready` is 1 exactly when `BUSY = 0` and `rst = 0`, and at an edge where `cmd_valid` and `cmd_ready` are not both 1
the word on the port has no effect (10_state.md R37). -/
def Obligations.HandshakeGuardsAcceptance : Prop :=
  ∀ (s : State) (p : EdgeIn),
    (s.cmdReady p.rst = true ↔ s.busy = false ∧ p.rst = false) ∧
    (¬ (p.cmdValid = true ∧ s.cmdReady p.rst = true) →
      ∀ (w : Word) (v : Bool), ¬ (v = true ∧ s.cmdReady p.rst = true) →
        clockEdge { p with cmdWord := w, cmdValid := v } s = clockEdge p s)

/-- While a command runs the host sees the old results, not partial ones (10_state.md R31; 20_memory.md R57; 70_reset_and_hazards.md R237). -/
def Obligations.ResultsHoldWhileBusy : Prop :=
  ∀ (s : State) (p : EdgeIn), p.rst = false → (clockEdge p s).busy = true → SameResults s (clockEdge p s)

/-- The accepting edge and the completing edge drive no pin: the first event comes at a later edge than the acceptance, and the completion
at a later edge than the last event (40_command_dispatch.md R103, R104; 42_register_channel.md R146). -/
def Obligations.AcceptAndCompleteDriveNoPin : Prop :=
  ∀ (s : State) (p : EdgeIn), p.rst = false →
    s.busy = false ∨ (clockEdge p s).busy = false →
    SamePins s (clockEdge p s) ∧ ((clockEdge p s).trace = s.trace ∨ (clockEdge p s).trace = [])

/-- Refinement: from the accepting edge on, however long the waits and the events take and whatever the host puts on the port meanwhile, the
state at the completing edge is the one the command level answers (40_command_dispatch.md R101, R104 to R106, R108; 92 D29). "However long"
is the model's form of it, the number of actions each edge performs, which is any number (log 6). -/
def Obligations.ClockRunRefinesExec : Prop :=
  ∀ (s : State) (i : Instr) (accept last : EdgeIn) (ps : List EdgeIn),
    s.busy = false → i = .init ∨ s.initDone = true →
    accept.rst = false → accept.cmdValid = true → decode accept.cmdWord = .command i →
    (∀ p ∈ ps, p.rst = false) → last.rst = false →
    (∀ k ≤ ps.length, (clockRun (ps.take k) (clockEdge accept s)).busy = true) →
    (clockRun (ps ++ [last]) (clockEdge accept s)).busy = false →
    exec i s = .next (clockRun (ps ++ [last]) (clockEdge accept s))

/-- Every accepted command completes, whatever the sensor does: if at every edge the implementation performs at least one action that may
happen, within 170 edges more than the longest waits (40_command_dispatch.md R107). The bound is the model's, counted from its programs (log 6). -/
def Obligations.AcceptedCommandsComplete : Prop :=
  ∀ (s : State) (accept : EdgeIn) (ps : List EdgeIn),
    accept.rst = false → s.busy = false → (clockEdge accept s).busy = true →
    (∀ p ∈ ps, p.rst = false ∧ 1 ≤ p.quota) →
    170 + s.cfg.tInit + s.cfg.tCss + s.cfg.tTurn + 32 * (s.cfg.tLo + s.cfg.tHi) ≤ ps.length →
    ∃ k ≤ ps.length, (clockRun (ps.take k) (clockEdge accept s)).busy = false

/-- The waits are lower bounds: however fast the implementation, a running command has used at least as many edges as the waits in its
trace (00_scope.md R12; 70_reset_and_hazards.md R243). The edges and the actions each performs are the model's form (log 6). -/
def Obligations.WaitsAreLowerBounds : Prop :=
  ∀ (s : State) (accept : EdgeIn) (ps : List EdgeIn),
    accept.rst = false → s.busy = false →
    (∀ p ∈ ps, p.rst = false) →
    (∀ k ≤ ps.length, (clockRun (ps.take k) (clockEdge accept s)).busy = true) →
    minCycles s.cfg (clockRun ps (clockEdge accept s)).trace ≤ ps.length
end

