-- ==== Sys2Proof/Laws/State.lean ====
section
/-! SUPPORT. One lemma per field per update of the state, so that no later proof unfolds a record update. -/

namespace Sys2Proof.Machine

/-! `log` -/

@[simp] theorem log_pinOe (s : State) (e : PinEvent) : (s.log e).pinOe = s.pinOe := rfl
@[simp] theorem log_pinCsN (s : State) (e : PinEvent) : (s.log e).pinCsN = s.pinCsN := rfl
@[simp] theorem log_pinSck (s : State) (e : PinEvent) : (s.log e).pinSck = s.pinSck := rfl
@[simp] theorem log_pinSdo (s : State) (e : PinEvent) : (s.log e).pinSdo = s.pinSdo := rfl
@[simp] theorem log_busy (s : State) (e : PinEvent) : (s.log e).busy = s.busy := rfl
@[simp] theorem log_initDone (s : State) (e : PinEvent) : (s.log e).initDone = s.initDone := rfl
@[simp] theorem log_angleErr (s : State) (e : PinEvent) : (s.log e).angleErr = s.angleErr := rfl
@[simp] theorem log_errIllegal (s : State) (e : PinEvent) : (s.log e).errIllegal = s.errIllegal := rfl
@[simp] theorem log_errNoinit (s : State) (e : PinEvent) : (s.log e).errNoinit = s.errNoinit := rfl
@[simp] theorem log_result (s : State) (e : PinEvent) : (s.log e).result = s.result := rfl
@[simp] theorem log_angle (s : State) (e : PinEvent) : (s.log e).angle = s.angle := rfl
@[simp] theorem log_cmdOp (s : State) (e : PinEvent) : (s.log e).cmdOp = s.cmdOp := rfl
@[simp] theorem log_cmdOpnd (s : State) (e : PinEvent) : (s.log e).cmdOpnd = s.cmdOpnd := rfl
@[simp] theorem log_seq (s : State) (e : PinEvent) : (s.log e).seq = s.seq := rfl
@[simp] theorem log_sr (s : State) (e : PinEvent) : (s.log e).sr = s.sr := rfl
@[simp] theorem log_bitcnt (s : State) (e : PinEvent) : (s.log e).bitcnt = s.bitcnt := rfl
@[simp] theorem log_rx16 (s : State) (e : PinEvent) : (s.log e).rx16 = s.rx16 := rfl
@[simp] theorem log_dly (s : State) (e : PinEvent) : (s.log e).dly = 0 := rfl
@[simp] theorem log_cfg (s : State) (e : PinEvent) : (s.log e).cfg = s.cfg := rfl
@[simp] theorem log_host (s : State) (e : PinEvent) : (s.log e).host = s.host := rfl
@[simp] theorem log_sdi (s : State) (e : PinEvent) : (s.log e).sdi = s.sdi := rfl
@[simp] theorem log_sampleNo (s : State) (e : PinEvent) : (s.log e).sampleNo = s.sampleNo := rfl
@[simp] theorem log_trace (s : State) (e : PinEvent) : (s.log e).trace = s.trace ++ [e] := rfl

/-! `drive_oe` -/

@[simp] theorem drive_oe_pinOe (s : State) (b : Level) : (s.drive .oe b).pinOe = b := rfl
@[simp] theorem drive_oe_pinCsN (s : State) (b : Level) : (s.drive .oe b).pinCsN = s.pinCsN := rfl
@[simp] theorem drive_oe_pinSck (s : State) (b : Level) : (s.drive .oe b).pinSck = s.pinSck := rfl
@[simp] theorem drive_oe_pinSdo (s : State) (b : Level) : (s.drive .oe b).pinSdo = s.pinSdo := rfl
@[simp] theorem drive_oe_busy (s : State) (b : Level) : (s.drive .oe b).busy = s.busy := rfl
@[simp] theorem drive_oe_initDone (s : State) (b : Level) : (s.drive .oe b).initDone = s.initDone := rfl
@[simp] theorem drive_oe_angleErr (s : State) (b : Level) : (s.drive .oe b).angleErr = s.angleErr := rfl
@[simp] theorem drive_oe_errIllegal (s : State) (b : Level) : (s.drive .oe b).errIllegal = s.errIllegal := rfl
@[simp] theorem drive_oe_errNoinit (s : State) (b : Level) : (s.drive .oe b).errNoinit = s.errNoinit := rfl
@[simp] theorem drive_oe_result (s : State) (b : Level) : (s.drive .oe b).result = s.result := rfl
@[simp] theorem drive_oe_angle (s : State) (b : Level) : (s.drive .oe b).angle = s.angle := rfl
@[simp] theorem drive_oe_cmdOp (s : State) (b : Level) : (s.drive .oe b).cmdOp = s.cmdOp := rfl
@[simp] theorem drive_oe_cmdOpnd (s : State) (b : Level) : (s.drive .oe b).cmdOpnd = s.cmdOpnd := rfl
@[simp] theorem drive_oe_seq (s : State) (b : Level) : (s.drive .oe b).seq = s.seq := rfl
@[simp] theorem drive_oe_sr (s : State) (b : Level) : (s.drive .oe b).sr = s.sr := rfl
@[simp] theorem drive_oe_bitcnt (s : State) (b : Level) : (s.drive .oe b).bitcnt = s.bitcnt := rfl
@[simp] theorem drive_oe_rx16 (s : State) (b : Level) : (s.drive .oe b).rx16 = s.rx16 := rfl
@[simp] theorem drive_oe_dly (s : State) (b : Level) : (s.drive .oe b).dly = s.dly := rfl
@[simp] theorem drive_oe_cfg (s : State) (b : Level) : (s.drive .oe b).cfg = s.cfg := rfl
@[simp] theorem drive_oe_host (s : State) (b : Level) : (s.drive .oe b).host = s.host := rfl
@[simp] theorem drive_oe_sdi (s : State) (b : Level) : (s.drive .oe b).sdi = s.sdi := rfl
@[simp] theorem drive_oe_sampleNo (s : State) (b : Level) : (s.drive .oe b).sampleNo = s.sampleNo := rfl
@[simp] theorem drive_oe_trace (s : State) (b : Level) : (s.drive .oe b).trace = s.trace := rfl

/-! `drive_csN` -/

@[simp] theorem drive_csN_pinOe (s : State) (b : Level) : (s.drive .csN b).pinOe = s.pinOe := rfl
@[simp] theorem drive_csN_pinCsN (s : State) (b : Level) : (s.drive .csN b).pinCsN = b := rfl
@[simp] theorem drive_csN_pinSck (s : State) (b : Level) : (s.drive .csN b).pinSck = s.pinSck := rfl
@[simp] theorem drive_csN_pinSdo (s : State) (b : Level) : (s.drive .csN b).pinSdo = s.pinSdo := rfl
@[simp] theorem drive_csN_busy (s : State) (b : Level) : (s.drive .csN b).busy = s.busy := rfl
@[simp] theorem drive_csN_initDone (s : State) (b : Level) : (s.drive .csN b).initDone = s.initDone := rfl
@[simp] theorem drive_csN_angleErr (s : State) (b : Level) : (s.drive .csN b).angleErr = s.angleErr := rfl
@[simp] theorem drive_csN_errIllegal (s : State) (b : Level) : (s.drive .csN b).errIllegal = s.errIllegal := rfl
@[simp] theorem drive_csN_errNoinit (s : State) (b : Level) : (s.drive .csN b).errNoinit = s.errNoinit := rfl
@[simp] theorem drive_csN_result (s : State) (b : Level) : (s.drive .csN b).result = s.result := rfl
@[simp] theorem drive_csN_angle (s : State) (b : Level) : (s.drive .csN b).angle = s.angle := rfl
@[simp] theorem drive_csN_cmdOp (s : State) (b : Level) : (s.drive .csN b).cmdOp = s.cmdOp := rfl
@[simp] theorem drive_csN_cmdOpnd (s : State) (b : Level) : (s.drive .csN b).cmdOpnd = s.cmdOpnd := rfl
@[simp] theorem drive_csN_seq (s : State) (b : Level) : (s.drive .csN b).seq = s.seq := rfl
@[simp] theorem drive_csN_sr (s : State) (b : Level) : (s.drive .csN b).sr = s.sr := rfl
@[simp] theorem drive_csN_bitcnt (s : State) (b : Level) : (s.drive .csN b).bitcnt = s.bitcnt := rfl
@[simp] theorem drive_csN_rx16 (s : State) (b : Level) : (s.drive .csN b).rx16 = s.rx16 := rfl
@[simp] theorem drive_csN_dly (s : State) (b : Level) : (s.drive .csN b).dly = s.dly := rfl
@[simp] theorem drive_csN_cfg (s : State) (b : Level) : (s.drive .csN b).cfg = s.cfg := rfl
@[simp] theorem drive_csN_host (s : State) (b : Level) : (s.drive .csN b).host = s.host := rfl
@[simp] theorem drive_csN_sdi (s : State) (b : Level) : (s.drive .csN b).sdi = s.sdi := rfl
@[simp] theorem drive_csN_sampleNo (s : State) (b : Level) : (s.drive .csN b).sampleNo = s.sampleNo := rfl
@[simp] theorem drive_csN_trace (s : State) (b : Level) : (s.drive .csN b).trace = s.trace := rfl

/-! `drive_sck` -/

@[simp] theorem drive_sck_pinOe (s : State) (b : Level) : (s.drive .sck b).pinOe = s.pinOe := rfl
@[simp] theorem drive_sck_pinCsN (s : State) (b : Level) : (s.drive .sck b).pinCsN = s.pinCsN := rfl
@[simp] theorem drive_sck_pinSck (s : State) (b : Level) : (s.drive .sck b).pinSck = b := rfl
@[simp] theorem drive_sck_pinSdo (s : State) (b : Level) : (s.drive .sck b).pinSdo = s.pinSdo := rfl
@[simp] theorem drive_sck_busy (s : State) (b : Level) : (s.drive .sck b).busy = s.busy := rfl
@[simp] theorem drive_sck_initDone (s : State) (b : Level) : (s.drive .sck b).initDone = s.initDone := rfl
@[simp] theorem drive_sck_angleErr (s : State) (b : Level) : (s.drive .sck b).angleErr = s.angleErr := rfl
@[simp] theorem drive_sck_errIllegal (s : State) (b : Level) : (s.drive .sck b).errIllegal = s.errIllegal := rfl
@[simp] theorem drive_sck_errNoinit (s : State) (b : Level) : (s.drive .sck b).errNoinit = s.errNoinit := rfl
@[simp] theorem drive_sck_result (s : State) (b : Level) : (s.drive .sck b).result = s.result := rfl
@[simp] theorem drive_sck_angle (s : State) (b : Level) : (s.drive .sck b).angle = s.angle := rfl
@[simp] theorem drive_sck_cmdOp (s : State) (b : Level) : (s.drive .sck b).cmdOp = s.cmdOp := rfl
@[simp] theorem drive_sck_cmdOpnd (s : State) (b : Level) : (s.drive .sck b).cmdOpnd = s.cmdOpnd := rfl
@[simp] theorem drive_sck_seq (s : State) (b : Level) : (s.drive .sck b).seq = s.seq := rfl
@[simp] theorem drive_sck_sr (s : State) (b : Level) : (s.drive .sck b).sr = s.sr := rfl
@[simp] theorem drive_sck_bitcnt (s : State) (b : Level) : (s.drive .sck b).bitcnt = s.bitcnt := rfl
@[simp] theorem drive_sck_rx16 (s : State) (b : Level) : (s.drive .sck b).rx16 = s.rx16 := rfl
@[simp] theorem drive_sck_dly (s : State) (b : Level) : (s.drive .sck b).dly = s.dly := rfl
@[simp] theorem drive_sck_cfg (s : State) (b : Level) : (s.drive .sck b).cfg = s.cfg := rfl
@[simp] theorem drive_sck_host (s : State) (b : Level) : (s.drive .sck b).host = s.host := rfl
@[simp] theorem drive_sck_sdi (s : State) (b : Level) : (s.drive .sck b).sdi = s.sdi := rfl
@[simp] theorem drive_sck_sampleNo (s : State) (b : Level) : (s.drive .sck b).sampleNo = s.sampleNo := rfl
@[simp] theorem drive_sck_trace (s : State) (b : Level) : (s.drive .sck b).trace = s.trace := rfl

/-! `drive_sdo` -/

@[simp] theorem drive_sdo_pinOe (s : State) (b : Level) : (s.drive .sdo b).pinOe = s.pinOe := rfl
@[simp] theorem drive_sdo_pinCsN (s : State) (b : Level) : (s.drive .sdo b).pinCsN = s.pinCsN := rfl
@[simp] theorem drive_sdo_pinSck (s : State) (b : Level) : (s.drive .sdo b).pinSck = s.pinSck := rfl
@[simp] theorem drive_sdo_pinSdo (s : State) (b : Level) : (s.drive .sdo b).pinSdo = b := rfl
@[simp] theorem drive_sdo_busy (s : State) (b : Level) : (s.drive .sdo b).busy = s.busy := rfl
@[simp] theorem drive_sdo_initDone (s : State) (b : Level) : (s.drive .sdo b).initDone = s.initDone := rfl
@[simp] theorem drive_sdo_angleErr (s : State) (b : Level) : (s.drive .sdo b).angleErr = s.angleErr := rfl
@[simp] theorem drive_sdo_errIllegal (s : State) (b : Level) : (s.drive .sdo b).errIllegal = s.errIllegal := rfl
@[simp] theorem drive_sdo_errNoinit (s : State) (b : Level) : (s.drive .sdo b).errNoinit = s.errNoinit := rfl
@[simp] theorem drive_sdo_result (s : State) (b : Level) : (s.drive .sdo b).result = s.result := rfl
@[simp] theorem drive_sdo_angle (s : State) (b : Level) : (s.drive .sdo b).angle = s.angle := rfl
@[simp] theorem drive_sdo_cmdOp (s : State) (b : Level) : (s.drive .sdo b).cmdOp = s.cmdOp := rfl
@[simp] theorem drive_sdo_cmdOpnd (s : State) (b : Level) : (s.drive .sdo b).cmdOpnd = s.cmdOpnd := rfl
@[simp] theorem drive_sdo_seq (s : State) (b : Level) : (s.drive .sdo b).seq = s.seq := rfl
@[simp] theorem drive_sdo_sr (s : State) (b : Level) : (s.drive .sdo b).sr = s.sr := rfl
@[simp] theorem drive_sdo_bitcnt (s : State) (b : Level) : (s.drive .sdo b).bitcnt = s.bitcnt := rfl
@[simp] theorem drive_sdo_rx16 (s : State) (b : Level) : (s.drive .sdo b).rx16 = s.rx16 := rfl
@[simp] theorem drive_sdo_dly (s : State) (b : Level) : (s.drive .sdo b).dly = s.dly := rfl
@[simp] theorem drive_sdo_cfg (s : State) (b : Level) : (s.drive .sdo b).cfg = s.cfg := rfl
@[simp] theorem drive_sdo_host (s : State) (b : Level) : (s.drive .sdo b).host = s.host := rfl
@[simp] theorem drive_sdo_sdi (s : State) (b : Level) : (s.drive .sdo b).sdi = s.sdi := rfl
@[simp] theorem drive_sdo_sampleNo (s : State) (b : Level) : (s.drive .sdo b).sampleNo = s.sampleNo := rfl
@[simp] theorem drive_sdo_trace (s : State) (b : Level) : (s.drive .sdo b).trace = s.trace := rfl

/-! `rejectIllegal` -/

@[simp] theorem rejectIllegal_pinOe (s : State) : (rejectIllegal s).pinOe = s.pinOe := rfl
@[simp] theorem rejectIllegal_pinCsN (s : State) : (rejectIllegal s).pinCsN = s.pinCsN := rfl
@[simp] theorem rejectIllegal_pinSck (s : State) : (rejectIllegal s).pinSck = s.pinSck := rfl
@[simp] theorem rejectIllegal_pinSdo (s : State) : (rejectIllegal s).pinSdo = s.pinSdo := rfl
@[simp] theorem rejectIllegal_busy (s : State) : (rejectIllegal s).busy = s.busy := rfl
@[simp] theorem rejectIllegal_initDone (s : State) : (rejectIllegal s).initDone = s.initDone := rfl
@[simp] theorem rejectIllegal_angleErr (s : State) : (rejectIllegal s).angleErr = s.angleErr := rfl
@[simp] theorem rejectIllegal_errIllegal (s : State) : (rejectIllegal s).errIllegal = true := rfl
@[simp] theorem rejectIllegal_errNoinit (s : State) : (rejectIllegal s).errNoinit = s.errNoinit := rfl
@[simp] theorem rejectIllegal_result (s : State) : (rejectIllegal s).result = s.result := rfl
@[simp] theorem rejectIllegal_angle (s : State) : (rejectIllegal s).angle = s.angle := rfl
@[simp] theorem rejectIllegal_cmdOp (s : State) : (rejectIllegal s).cmdOp = s.cmdOp := rfl
@[simp] theorem rejectIllegal_cmdOpnd (s : State) : (rejectIllegal s).cmdOpnd = s.cmdOpnd := rfl
@[simp] theorem rejectIllegal_seq (s : State) : (rejectIllegal s).seq = s.seq := rfl
@[simp] theorem rejectIllegal_sr (s : State) : (rejectIllegal s).sr = s.sr := rfl
@[simp] theorem rejectIllegal_bitcnt (s : State) : (rejectIllegal s).bitcnt = s.bitcnt := rfl
@[simp] theorem rejectIllegal_rx16 (s : State) : (rejectIllegal s).rx16 = s.rx16 := rfl
@[simp] theorem rejectIllegal_dly (s : State) : (rejectIllegal s).dly = s.dly := rfl
@[simp] theorem rejectIllegal_cfg (s : State) : (rejectIllegal s).cfg = s.cfg := rfl
@[simp] theorem rejectIllegal_host (s : State) : (rejectIllegal s).host = s.host := rfl
@[simp] theorem rejectIllegal_sdi (s : State) : (rejectIllegal s).sdi = s.sdi := rfl
@[simp] theorem rejectIllegal_sampleNo (s : State) : (rejectIllegal s).sampleNo = s.sampleNo := rfl
@[simp] theorem rejectIllegal_trace (s : State) : (rejectIllegal s).trace = [] := rfl

/-! `rejectNoinit` -/

@[simp] theorem rejectNoinit_pinOe (s : State) : (rejectNoinit s).pinOe = s.pinOe := rfl
@[simp] theorem rejectNoinit_pinCsN (s : State) : (rejectNoinit s).pinCsN = s.pinCsN := rfl
@[simp] theorem rejectNoinit_pinSck (s : State) : (rejectNoinit s).pinSck = s.pinSck := rfl
@[simp] theorem rejectNoinit_pinSdo (s : State) : (rejectNoinit s).pinSdo = s.pinSdo := rfl
@[simp] theorem rejectNoinit_busy (s : State) : (rejectNoinit s).busy = s.busy := rfl
@[simp] theorem rejectNoinit_initDone (s : State) : (rejectNoinit s).initDone = s.initDone := rfl
@[simp] theorem rejectNoinit_angleErr (s : State) : (rejectNoinit s).angleErr = s.angleErr := rfl
@[simp] theorem rejectNoinit_errIllegal (s : State) : (rejectNoinit s).errIllegal = s.errIllegal := rfl
@[simp] theorem rejectNoinit_errNoinit (s : State) : (rejectNoinit s).errNoinit = true := rfl
@[simp] theorem rejectNoinit_result (s : State) : (rejectNoinit s).result = s.result := rfl
@[simp] theorem rejectNoinit_angle (s : State) : (rejectNoinit s).angle = s.angle := rfl
@[simp] theorem rejectNoinit_cmdOp (s : State) : (rejectNoinit s).cmdOp = s.cmdOp := rfl
@[simp] theorem rejectNoinit_cmdOpnd (s : State) : (rejectNoinit s).cmdOpnd = s.cmdOpnd := rfl
@[simp] theorem rejectNoinit_seq (s : State) : (rejectNoinit s).seq = s.seq := rfl
@[simp] theorem rejectNoinit_sr (s : State) : (rejectNoinit s).sr = s.sr := rfl
@[simp] theorem rejectNoinit_bitcnt (s : State) : (rejectNoinit s).bitcnt = s.bitcnt := rfl
@[simp] theorem rejectNoinit_rx16 (s : State) : (rejectNoinit s).rx16 = s.rx16 := rfl
@[simp] theorem rejectNoinit_dly (s : State) : (rejectNoinit s).dly = s.dly := rfl
@[simp] theorem rejectNoinit_cfg (s : State) : (rejectNoinit s).cfg = s.cfg := rfl
@[simp] theorem rejectNoinit_host (s : State) : (rejectNoinit s).host = s.host := rfl
@[simp] theorem rejectNoinit_sdi (s : State) : (rejectNoinit s).sdi = s.sdi := rfl
@[simp] theorem rejectNoinit_sampleNo (s : State) : (rejectNoinit s).sampleNo = s.sampleNo := rfl
@[simp] theorem rejectNoinit_trace (s : State) : (rejectNoinit s).trace = [] := rfl

/-! `latch` -/

@[simp] theorem latch_pinOe (w : Word) (s : State) : (latch w s).pinOe = s.pinOe := rfl
@[simp] theorem latch_pinCsN (w : Word) (s : State) : (latch w s).pinCsN = s.pinCsN := rfl
@[simp] theorem latch_pinSck (w : Word) (s : State) : (latch w s).pinSck = s.pinSck := rfl
@[simp] theorem latch_pinSdo (w : Word) (s : State) : (latch w s).pinSdo = s.pinSdo := rfl
@[simp] theorem latch_busy (w : Word) (s : State) : (latch w s).busy = s.busy := rfl
@[simp] theorem latch_initDone (w : Word) (s : State) : (latch w s).initDone = s.initDone := rfl
@[simp] theorem latch_angleErr (w : Word) (s : State) : (latch w s).angleErr = s.angleErr := rfl
@[simp] theorem latch_errIllegal (w : Word) (s : State) : (latch w s).errIllegal = s.errIllegal := rfl
@[simp] theorem latch_errNoinit (w : Word) (s : State) : (latch w s).errNoinit = s.errNoinit := rfl
@[simp] theorem latch_result (w : Word) (s : State) : (latch w s).result = s.result := rfl
@[simp] theorem latch_angle (w : Word) (s : State) : (latch w s).angle = s.angle := rfl
@[simp] theorem latch_cmdOp (w : Word) (s : State) : (latch w s).cmdOp = opField w := rfl
@[simp] theorem latch_cmdOpnd (w : Word) (s : State) : (latch w s).cmdOpnd = addrField w := rfl
@[simp] theorem latch_seq (w : Word) (s : State) : (latch w s).seq = s.seq := rfl
@[simp] theorem latch_sr (w : Word) (s : State) : (latch w s).sr = s.sr := rfl
@[simp] theorem latch_bitcnt (w : Word) (s : State) : (latch w s).bitcnt = s.bitcnt := rfl
@[simp] theorem latch_rx16 (w : Word) (s : State) : (latch w s).rx16 = s.rx16 := rfl
@[simp] theorem latch_dly (w : Word) (s : State) : (latch w s).dly = s.dly := rfl
@[simp] theorem latch_cfg (w : Word) (s : State) : (latch w s).cfg = s.cfg := rfl
@[simp] theorem latch_host (w : Word) (s : State) : (latch w s).host = s.host := rfl
@[simp] theorem latch_sdi (w : Word) (s : State) : (latch w s).sdi = s.sdi := rfl
@[simp] theorem latch_sampleNo (w : Word) (s : State) : (latch w s).sampleNo = s.sampleNo := rfl
@[simp] theorem latch_trace (w : Word) (s : State) : (latch w s).trace = s.trace := rfl

/-! `complete` -/

@[simp] theorem complete_pinOe (s : State) : (complete s).pinOe = s.pinOe := rfl
@[simp] theorem complete_pinCsN (s : State) : (complete s).pinCsN = s.pinCsN := rfl
@[simp] theorem complete_pinSck (s : State) : (complete s).pinSck = s.pinSck := rfl
@[simp] theorem complete_pinSdo (s : State) : (complete s).pinSdo = s.pinSdo := rfl
@[simp] theorem complete_busy (s : State) : (complete s).busy = false := rfl
@[simp] theorem complete_initDone (s : State) : (complete s).initDone = s.initDone := rfl
@[simp] theorem complete_angleErr (s : State) : (complete s).angleErr = s.angleErr := rfl
@[simp] theorem complete_errIllegal (s : State) : (complete s).errIllegal = s.errIllegal := rfl
@[simp] theorem complete_errNoinit (s : State) : (complete s).errNoinit = s.errNoinit := rfl
@[simp] theorem complete_result (s : State) : (complete s).result = s.result := rfl
@[simp] theorem complete_angle (s : State) : (complete s).angle = s.angle := rfl
@[simp] theorem complete_cmdOp (s : State) : (complete s).cmdOp = s.cmdOp := rfl
@[simp] theorem complete_cmdOpnd (s : State) : (complete s).cmdOpnd = s.cmdOpnd := rfl
@[simp] theorem complete_seq (s : State) : (complete s).seq = .idle := rfl
@[simp] theorem complete_sr (s : State) : (complete s).sr = s.sr := rfl
@[simp] theorem complete_bitcnt (s : State) : (complete s).bitcnt = s.bitcnt := rfl
@[simp] theorem complete_rx16 (s : State) : (complete s).rx16 = s.rx16 := rfl
@[simp] theorem complete_dly (s : State) : (complete s).dly = s.dly := rfl
@[simp] theorem complete_cfg (s : State) : (complete s).cfg = s.cfg := rfl
@[simp] theorem complete_host (s : State) : (complete s).host = s.host := rfl
@[simp] theorem complete_sdi (s : State) : (complete s).sdi = s.sdi := rfl
@[simp] theorem complete_sampleNo (s : State) : (complete s).sampleNo = s.sampleNo := rfl
@[simp] theorem complete_trace (s : State) : (complete s).trace = s.trace := rfl

/-! `stayIdle` -/

@[simp] theorem stayIdle_pinOe (s : State) : (stayIdle s).pinOe = s.pinOe := rfl
@[simp] theorem stayIdle_pinCsN (s : State) : (stayIdle s).pinCsN = s.pinCsN := rfl
@[simp] theorem stayIdle_pinSck (s : State) : (stayIdle s).pinSck = s.pinSck := rfl
@[simp] theorem stayIdle_pinSdo (s : State) : (stayIdle s).pinSdo = s.pinSdo := rfl
@[simp] theorem stayIdle_busy (s : State) : (stayIdle s).busy = s.busy := rfl
@[simp] theorem stayIdle_initDone (s : State) : (stayIdle s).initDone = s.initDone := rfl
@[simp] theorem stayIdle_angleErr (s : State) : (stayIdle s).angleErr = s.angleErr := rfl
@[simp] theorem stayIdle_errIllegal (s : State) : (stayIdle s).errIllegal = s.errIllegal := rfl
@[simp] theorem stayIdle_errNoinit (s : State) : (stayIdle s).errNoinit = s.errNoinit := rfl
@[simp] theorem stayIdle_result (s : State) : (stayIdle s).result = s.result := rfl
@[simp] theorem stayIdle_angle (s : State) : (stayIdle s).angle = s.angle := rfl
@[simp] theorem stayIdle_cmdOp (s : State) : (stayIdle s).cmdOp = s.cmdOp := rfl
@[simp] theorem stayIdle_cmdOpnd (s : State) : (stayIdle s).cmdOpnd = s.cmdOpnd := rfl
@[simp] theorem stayIdle_seq (s : State) : (stayIdle s).seq = s.seq := rfl
@[simp] theorem stayIdle_sr (s : State) : (stayIdle s).sr = s.sr := rfl
@[simp] theorem stayIdle_bitcnt (s : State) : (stayIdle s).bitcnt = s.bitcnt := rfl
@[simp] theorem stayIdle_rx16 (s : State) : (stayIdle s).rx16 = s.rx16 := rfl
@[simp] theorem stayIdle_dly (s : State) : (stayIdle s).dly = s.dly := rfl
@[simp] theorem stayIdle_cfg (s : State) : (stayIdle s).cfg = s.cfg := rfl
@[simp] theorem stayIdle_host (s : State) : (stayIdle s).host = s.host := rfl
@[simp] theorem stayIdle_sdi (s : State) : (stayIdle s).sdi = s.sdi := rfl
@[simp] theorem stayIdle_sampleNo (s : State) : (stayIdle s).sampleNo = s.sampleNo := rfl
@[simp] theorem stayIdle_trace (s : State) : (stayIdle s).trace = [] := rfl

/-! `placeWord` -/

@[simp] theorem placeWord_pinOe (w : Word) (s : State) : (placeWord w s).pinOe = s.pinOe := rfl
@[simp] theorem placeWord_pinCsN (w : Word) (s : State) : (placeWord w s).pinCsN = s.pinCsN := rfl
@[simp] theorem placeWord_pinSck (w : Word) (s : State) : (placeWord w s).pinSck = s.pinSck := rfl
@[simp] theorem placeWord_pinSdo (w : Word) (s : State) : (placeWord w s).pinSdo = s.pinSdo := rfl
@[simp] theorem placeWord_busy (w : Word) (s : State) : (placeWord w s).busy = false := rfl
@[simp] theorem placeWord_initDone (w : Word) (s : State) : (placeWord w s).initDone = s.initDone := rfl
@[simp] theorem placeWord_angleErr (w : Word) (s : State) : (placeWord w s).angleErr = s.angleErr := rfl
@[simp] theorem placeWord_errIllegal (w : Word) (s : State) : (placeWord w s).errIllegal = s.errIllegal := rfl
@[simp] theorem placeWord_errNoinit (w : Word) (s : State) : (placeWord w s).errNoinit = s.errNoinit := rfl
@[simp] theorem placeWord_result (w : Word) (s : State) : (placeWord w s).result = s.result := rfl
@[simp] theorem placeWord_angle (w : Word) (s : State) : (placeWord w s).angle = s.angle := rfl
@[simp] theorem placeWord_cmdOp (w : Word) (s : State) : (placeWord w s).cmdOp = s.cmdOp := rfl
@[simp] theorem placeWord_cmdOpnd (w : Word) (s : State) : (placeWord w s).cmdOpnd = s.cmdOpnd := rfl
@[simp] theorem placeWord_seq (w : Word) (s : State) : (placeWord w s).seq = .idle := rfl
@[simp] theorem placeWord_sr (w : Word) (s : State) : (placeWord w s).sr = s.sr := rfl
@[simp] theorem placeWord_bitcnt (w : Word) (s : State) : (placeWord w s).bitcnt = s.bitcnt := rfl
@[simp] theorem placeWord_rx16 (w : Word) (s : State) : (placeWord w s).rx16 = s.rx16 := rfl
@[simp] theorem placeWord_dly (w : Word) (s : State) : (placeWord w s).dly = s.dly := rfl
@[simp] theorem placeWord_cfg (w : Word) (s : State) : (placeWord w s).cfg = s.cfg := rfl
@[simp] theorem placeWord_host (w : Word) (s : State) : (placeWord w s).host = .command w :: s.host := rfl
@[simp] theorem placeWord_sdi (w : Word) (s : State) : (placeWord w s).sdi = s.sdi := rfl
@[simp] theorem placeWord_sampleNo (w : Word) (s : State) : (placeWord w s).sampleNo = s.sampleNo := rfl
@[simp] theorem placeWord_trace (w : Word) (s : State) : (placeWord w s).trace = s.trace := rfl

/-! `resetBlock` -/

@[simp] theorem resetBlock_pinOe (s : State) : (resetBlock s).pinOe = State.reset.pinOe := rfl
@[simp] theorem resetBlock_pinCsN (s : State) : (resetBlock s).pinCsN = State.reset.pinCsN := rfl
@[simp] theorem resetBlock_pinSck (s : State) : (resetBlock s).pinSck = State.reset.pinSck := rfl
@[simp] theorem resetBlock_pinSdo (s : State) : (resetBlock s).pinSdo = State.reset.pinSdo := rfl
@[simp] theorem resetBlock_busy (s : State) : (resetBlock s).busy = State.reset.busy := rfl
@[simp] theorem resetBlock_initDone (s : State) : (resetBlock s).initDone = State.reset.initDone := rfl
@[simp] theorem resetBlock_angleErr (s : State) : (resetBlock s).angleErr = State.reset.angleErr := rfl
@[simp] theorem resetBlock_errIllegal (s : State) : (resetBlock s).errIllegal = State.reset.errIllegal := rfl
@[simp] theorem resetBlock_errNoinit (s : State) : (resetBlock s).errNoinit = State.reset.errNoinit := rfl
@[simp] theorem resetBlock_result (s : State) : (resetBlock s).result = State.reset.result := rfl
@[simp] theorem resetBlock_angle (s : State) : (resetBlock s).angle = State.reset.angle := rfl
@[simp] theorem resetBlock_cmdOp (s : State) : (resetBlock s).cmdOp = State.reset.cmdOp := rfl
@[simp] theorem resetBlock_cmdOpnd (s : State) : (resetBlock s).cmdOpnd = State.reset.cmdOpnd := rfl
@[simp] theorem resetBlock_seq (s : State) : (resetBlock s).seq = State.reset.seq := rfl
@[simp] theorem resetBlock_sr (s : State) : (resetBlock s).sr = State.reset.sr := rfl
@[simp] theorem resetBlock_bitcnt (s : State) : (resetBlock s).bitcnt = State.reset.bitcnt := rfl
@[simp] theorem resetBlock_rx16 (s : State) : (resetBlock s).rx16 = State.reset.rx16 := rfl
@[simp] theorem resetBlock_dly (s : State) : (resetBlock s).dly = State.reset.dly := rfl
@[simp] theorem resetBlock_cfg (s : State) : (resetBlock s).cfg = s.cfg := rfl
@[simp] theorem resetBlock_host (s : State) : (resetBlock s).host = s.host := rfl
@[simp] theorem resetBlock_sdi (s : State) : (resetBlock s).sdi = s.sdi := rfl
@[simp] theorem resetBlock_sampleNo (s : State) : (resetBlock s).sampleNo = s.sampleNo := rfl
@[simp] theorem resetBlock_trace (s : State) : (resetBlock s).trace = s.trace := rfl

/-! `acceptWrites` and `start`: the fields that no command's acceptance writes -/

@[simp] theorem acceptWrites_pinOe (i : Instr) (s : State) : (acceptWrites i s).pinOe = s.pinOe := by cases i <;> rfl
@[simp] theorem acceptWrites_pinCsN (i : Instr) (s : State) : (acceptWrites i s).pinCsN = s.pinCsN := by cases i <;> rfl
@[simp] theorem acceptWrites_pinSck (i : Instr) (s : State) : (acceptWrites i s).pinSck = s.pinSck := by cases i <;> rfl
@[simp] theorem acceptWrites_pinSdo (i : Instr) (s : State) : (acceptWrites i s).pinSdo = s.pinSdo := by cases i <;> rfl
@[simp] theorem acceptWrites_busy (i : Instr) (s : State) : (acceptWrites i s).busy = s.busy := by cases i <;> rfl
@[simp] theorem acceptWrites_angleErr (i : Instr) (s : State) : (acceptWrites i s).angleErr = s.angleErr := by cases i <;> rfl
@[simp] theorem acceptWrites_result (i : Instr) (s : State) : (acceptWrites i s).result = s.result := by cases i <;> rfl
@[simp] theorem acceptWrites_angle (i : Instr) (s : State) : (acceptWrites i s).angle = s.angle := by cases i <;> rfl
@[simp] theorem acceptWrites_cmdOp (i : Instr) (s : State) : (acceptWrites i s).cmdOp = s.cmdOp := by cases i <;> rfl
@[simp] theorem acceptWrites_cmdOpnd (i : Instr) (s : State) : (acceptWrites i s).cmdOpnd = s.cmdOpnd := by cases i <;> rfl
@[simp] theorem acceptWrites_seq (i : Instr) (s : State) : (acceptWrites i s).seq = s.seq := by cases i <;> rfl
@[simp] theorem acceptWrites_sr (i : Instr) (s : State) : (acceptWrites i s).sr = s.sr := by cases i <;> rfl
@[simp] theorem acceptWrites_bitcnt (i : Instr) (s : State) : (acceptWrites i s).bitcnt = s.bitcnt := by cases i <;> rfl
@[simp] theorem acceptWrites_rx16 (i : Instr) (s : State) : (acceptWrites i s).rx16 = s.rx16 := by cases i <;> rfl
@[simp] theorem acceptWrites_dly (i : Instr) (s : State) : (acceptWrites i s).dly = s.dly := by cases i <;> rfl
@[simp] theorem acceptWrites_cfg (i : Instr) (s : State) : (acceptWrites i s).cfg = s.cfg := by cases i <;> rfl
@[simp] theorem acceptWrites_host (i : Instr) (s : State) : (acceptWrites i s).host = s.host := by cases i <;> rfl
@[simp] theorem acceptWrites_sdi (i : Instr) (s : State) : (acceptWrites i s).sdi = s.sdi := by cases i <;> rfl
@[simp] theorem acceptWrites_sampleNo (i : Instr) (s : State) : (acceptWrites i s).sampleNo = s.sampleNo := by cases i <;> rfl
@[simp] theorem acceptWrites_trace (i : Instr) (s : State) : (acceptWrites i s).trace = s.trace := by cases i <;> rfl
@[simp] theorem start_pinOe (i : Instr) (s : State) : (start i s).pinOe = s.pinOe := by cases i <;> rfl
@[simp] theorem start_pinCsN (i : Instr) (s : State) : (start i s).pinCsN = s.pinCsN := by cases i <;> rfl
@[simp] theorem start_pinSck (i : Instr) (s : State) : (start i s).pinSck = s.pinSck := by cases i <;> rfl
@[simp] theorem start_pinSdo (i : Instr) (s : State) : (start i s).pinSdo = s.pinSdo := by cases i <;> rfl
@[simp] theorem start_busy (i : Instr) (s : State) : (start i s).busy = true := by cases i <;> rfl
@[simp] theorem start_angleErr (i : Instr) (s : State) : (start i s).angleErr = s.angleErr := by cases i <;> rfl
@[simp] theorem start_result (i : Instr) (s : State) : (start i s).result = s.result := by cases i <;> rfl
@[simp] theorem start_angle (i : Instr) (s : State) : (start i s).angle = s.angle := by cases i <;> rfl
@[simp] theorem start_cmdOp (i : Instr) (s : State) : (start i s).cmdOp = opField (encode i) := by cases i <;> rfl
@[simp] theorem start_cmdOpnd (i : Instr) (s : State) : (start i s).cmdOpnd = addrField (encode i) := by cases i <;> rfl
@[simp] theorem start_seq (i : Instr) (s : State) : (start i s).seq = .running 0 := by cases i <;> rfl
@[simp] theorem start_sr (i : Instr) (s : State) : (start i s).sr = s.sr := by cases i <;> rfl
@[simp] theorem start_bitcnt (i : Instr) (s : State) : (start i s).bitcnt = s.bitcnt := by cases i <;> rfl
@[simp] theorem start_rx16 (i : Instr) (s : State) : (start i s).rx16 = s.rx16 := by cases i <;> rfl
@[simp] theorem start_dly (i : Instr) (s : State) : (start i s).dly = s.dly := by cases i <;> rfl
@[simp] theorem start_cfg (i : Instr) (s : State) : (start i s).cfg = s.cfg := by cases i <;> rfl
@[simp] theorem start_host (i : Instr) (s : State) : (start i s).host = s.host := by cases i <;> rfl
@[simp] theorem start_sdi (i : Instr) (s : State) : (start i s).sdi = s.sdi := by cases i <;> rfl
@[simp] theorem start_sampleNo (i : Instr) (s : State) : (start i s).sampleNo = s.sampleNo := by cases i <;> rfl
@[simp] theorem start_trace (i : Instr) (s : State) : (start i s).trace = [] := by cases i <;> rfl

/-! `acceptWrites` and `start`: the three flags that only INIT's acceptance writes -/

@[simp] theorem start_init_initDone (s : State) : (start .init s).initDone = false := rfl
@[simp] theorem start_init_errIllegal (s : State) : (start .init s).errIllegal = false := rfl
@[simp] theorem start_init_errNoinit (s : State) : (start .init s).errNoinit = false := rfl

theorem start_initDone (i : Instr) (hi : i ≠ .init) (s : State) : (start i s).initDone = s.initDone := by
  cases i <;> first | exact absurd rfl hi | rfl

theorem start_errIllegal (i : Instr) (hi : i ≠ .init) (s : State) : (start i s).errIllegal = s.errIllegal := by
  cases i <;> first | exact absurd rfl hi | rfl

theorem start_errNoinit (i : Instr) (hi : i ≠ .init) (s : State) : (start i s).errNoinit = s.errNoinit := by
  cases i <;> first | exact absurd rfl hi | rfl

end Sys2Proof.Machine
end

