-- ==== Sys2Proof/Laws/Frames.lean ====
section
/-! SUPPORT. No action of the sequencer touches a register that only acceptance or completion writes (10_state.md R25 to R33). -/

namespace Sys2Proof.Machine

@[simp] theorem drive_busy (s : State) (pin : Pin) (b : Level) : (s.drive pin b).busy = s.busy := by cases pin <;> rfl

@[simp] theorem driveAll_busy (sets : List (Pin × Level)) (s : State) : (s.driveAll sets).busy = s.busy := by
  induction sets generalizing s with
  | nil => rfl
  | cons p sets ih => rw [State.driveAll, ih, drive_busy]

@[simp] theorem perform_busy (a : Micro) (s : State) : (perform s a).busy = s.busy := by
  cases a <;> simp [perform, sendBit, sampleBit, endBit, State.log]

@[simp] theorem run_busy (l : List Micro) (s : State) : (run l s).busy = s.busy := by
  induction l generalizing s with
  | nil => rfl
  | cons a l ih => rw [run, List.foldl_cons, ← run, ih, perform_busy]

@[simp] theorem drive_initDone (s : State) (pin : Pin) (b : Level) : (s.drive pin b).initDone = s.initDone := by cases pin <;> rfl

@[simp] theorem driveAll_initDone (sets : List (Pin × Level)) (s : State) : (s.driveAll sets).initDone = s.initDone := by
  induction sets generalizing s with
  | nil => rfl
  | cons p sets ih => rw [State.driveAll, ih, drive_initDone]

@[simp] theorem perform_initDone (a : Micro) (s : State) : (perform s a).initDone = s.initDone := by
  cases a <;> simp [perform, sendBit, sampleBit, endBit, State.log]

@[simp] theorem run_initDone (l : List Micro) (s : State) : (run l s).initDone = s.initDone := by
  induction l generalizing s with
  | nil => rfl
  | cons a l ih => rw [run, List.foldl_cons, ← run, ih, perform_initDone]

@[simp] theorem drive_angleErr (s : State) (pin : Pin) (b : Level) : (s.drive pin b).angleErr = s.angleErr := by cases pin <;> rfl

@[simp] theorem driveAll_angleErr (sets : List (Pin × Level)) (s : State) : (s.driveAll sets).angleErr = s.angleErr := by
  induction sets generalizing s with
  | nil => rfl
  | cons p sets ih => rw [State.driveAll, ih, drive_angleErr]

@[simp] theorem perform_angleErr (a : Micro) (s : State) : (perform s a).angleErr = s.angleErr := by
  cases a <;> simp [perform, sendBit, sampleBit, endBit, State.log]

@[simp] theorem run_angleErr (l : List Micro) (s : State) : (run l s).angleErr = s.angleErr := by
  induction l generalizing s with
  | nil => rfl
  | cons a l ih => rw [run, List.foldl_cons, ← run, ih, perform_angleErr]

@[simp] theorem drive_errIllegal (s : State) (pin : Pin) (b : Level) : (s.drive pin b).errIllegal = s.errIllegal := by cases pin <;> rfl

@[simp] theorem driveAll_errIllegal (sets : List (Pin × Level)) (s : State) : (s.driveAll sets).errIllegal = s.errIllegal := by
  induction sets generalizing s with
  | nil => rfl
  | cons p sets ih => rw [State.driveAll, ih, drive_errIllegal]

@[simp] theorem perform_errIllegal (a : Micro) (s : State) : (perform s a).errIllegal = s.errIllegal := by
  cases a <;> simp [perform, sendBit, sampleBit, endBit, State.log]

@[simp] theorem run_errIllegal (l : List Micro) (s : State) : (run l s).errIllegal = s.errIllegal := by
  induction l generalizing s with
  | nil => rfl
  | cons a l ih => rw [run, List.foldl_cons, ← run, ih, perform_errIllegal]

@[simp] theorem drive_errNoinit (s : State) (pin : Pin) (b : Level) : (s.drive pin b).errNoinit = s.errNoinit := by cases pin <;> rfl

@[simp] theorem driveAll_errNoinit (sets : List (Pin × Level)) (s : State) : (s.driveAll sets).errNoinit = s.errNoinit := by
  induction sets generalizing s with
  | nil => rfl
  | cons p sets ih => rw [State.driveAll, ih, drive_errNoinit]

@[simp] theorem perform_errNoinit (a : Micro) (s : State) : (perform s a).errNoinit = s.errNoinit := by
  cases a <;> simp [perform, sendBit, sampleBit, endBit, State.log]

@[simp] theorem run_errNoinit (l : List Micro) (s : State) : (run l s).errNoinit = s.errNoinit := by
  induction l generalizing s with
  | nil => rfl
  | cons a l ih => rw [run, List.foldl_cons, ← run, ih, perform_errNoinit]

@[simp] theorem drive_result (s : State) (pin : Pin) (b : Level) : (s.drive pin b).result = s.result := by cases pin <;> rfl

@[simp] theorem driveAll_result (sets : List (Pin × Level)) (s : State) : (s.driveAll sets).result = s.result := by
  induction sets generalizing s with
  | nil => rfl
  | cons p sets ih => rw [State.driveAll, ih, drive_result]

@[simp] theorem perform_result (a : Micro) (s : State) : (perform s a).result = s.result := by
  cases a <;> simp [perform, sendBit, sampleBit, endBit, State.log]

@[simp] theorem run_result (l : List Micro) (s : State) : (run l s).result = s.result := by
  induction l generalizing s with
  | nil => rfl
  | cons a l ih => rw [run, List.foldl_cons, ← run, ih, perform_result]

@[simp] theorem drive_angle (s : State) (pin : Pin) (b : Level) : (s.drive pin b).angle = s.angle := by cases pin <;> rfl

@[simp] theorem driveAll_angle (sets : List (Pin × Level)) (s : State) : (s.driveAll sets).angle = s.angle := by
  induction sets generalizing s with
  | nil => rfl
  | cons p sets ih => rw [State.driveAll, ih, drive_angle]

@[simp] theorem perform_angle (a : Micro) (s : State) : (perform s a).angle = s.angle := by
  cases a <;> simp [perform, sendBit, sampleBit, endBit, State.log]

@[simp] theorem run_angle (l : List Micro) (s : State) : (run l s).angle = s.angle := by
  induction l generalizing s with
  | nil => rfl
  | cons a l ih => rw [run, List.foldl_cons, ← run, ih, perform_angle]

@[simp] theorem drive_cmdOp (s : State) (pin : Pin) (b : Level) : (s.drive pin b).cmdOp = s.cmdOp := by cases pin <;> rfl

@[simp] theorem driveAll_cmdOp (sets : List (Pin × Level)) (s : State) : (s.driveAll sets).cmdOp = s.cmdOp := by
  induction sets generalizing s with
  | nil => rfl
  | cons p sets ih => rw [State.driveAll, ih, drive_cmdOp]

@[simp] theorem perform_cmdOp (a : Micro) (s : State) : (perform s a).cmdOp = s.cmdOp := by
  cases a <;> simp [perform, sendBit, sampleBit, endBit, State.log]

@[simp] theorem run_cmdOp (l : List Micro) (s : State) : (run l s).cmdOp = s.cmdOp := by
  induction l generalizing s with
  | nil => rfl
  | cons a l ih => rw [run, List.foldl_cons, ← run, ih, perform_cmdOp]

@[simp] theorem drive_cmdOpnd (s : State) (pin : Pin) (b : Level) : (s.drive pin b).cmdOpnd = s.cmdOpnd := by cases pin <;> rfl

@[simp] theorem driveAll_cmdOpnd (sets : List (Pin × Level)) (s : State) : (s.driveAll sets).cmdOpnd = s.cmdOpnd := by
  induction sets generalizing s with
  | nil => rfl
  | cons p sets ih => rw [State.driveAll, ih, drive_cmdOpnd]

@[simp] theorem perform_cmdOpnd (a : Micro) (s : State) : (perform s a).cmdOpnd = s.cmdOpnd := by
  cases a <;> simp [perform, sendBit, sampleBit, endBit, State.log]

@[simp] theorem run_cmdOpnd (l : List Micro) (s : State) : (run l s).cmdOpnd = s.cmdOpnd := by
  induction l generalizing s with
  | nil => rfl
  | cons a l ih => rw [run, List.foldl_cons, ← run, ih, perform_cmdOpnd]

@[simp] theorem drive_seq (s : State) (pin : Pin) (b : Level) : (s.drive pin b).seq = s.seq := by cases pin <;> rfl

@[simp] theorem driveAll_seq (sets : List (Pin × Level)) (s : State) : (s.driveAll sets).seq = s.seq := by
  induction sets generalizing s with
  | nil => rfl
  | cons p sets ih => rw [State.driveAll, ih, drive_seq]

@[simp] theorem perform_seq (a : Micro) (s : State) : (perform s a).seq = s.seq := by
  cases a <;> simp [perform, sendBit, sampleBit, endBit, State.log]

@[simp] theorem run_seq (l : List Micro) (s : State) : (run l s).seq = s.seq := by
  induction l generalizing s with
  | nil => rfl
  | cons a l ih => rw [run, List.foldl_cons, ← run, ih, perform_seq]

@[simp] theorem drive_cfg (s : State) (pin : Pin) (b : Level) : (s.drive pin b).cfg = s.cfg := by cases pin <;> rfl

@[simp] theorem driveAll_cfg (sets : List (Pin × Level)) (s : State) : (s.driveAll sets).cfg = s.cfg := by
  induction sets generalizing s with
  | nil => rfl
  | cons p sets ih => rw [State.driveAll, ih, drive_cfg]

@[simp] theorem perform_cfg (a : Micro) (s : State) : (perform s a).cfg = s.cfg := by
  cases a <;> simp [perform, sendBit, sampleBit, endBit, State.log]

@[simp] theorem run_cfg (l : List Micro) (s : State) : (run l s).cfg = s.cfg := by
  induction l generalizing s with
  | nil => rfl
  | cons a l ih => rw [run, List.foldl_cons, ← run, ih, perform_cfg]

@[simp] theorem drive_host (s : State) (pin : Pin) (b : Level) : (s.drive pin b).host = s.host := by cases pin <;> rfl

@[simp] theorem driveAll_host (sets : List (Pin × Level)) (s : State) : (s.driveAll sets).host = s.host := by
  induction sets generalizing s with
  | nil => rfl
  | cons p sets ih => rw [State.driveAll, ih, drive_host]

@[simp] theorem perform_host (a : Micro) (s : State) : (perform s a).host = s.host := by
  cases a <;> simp [perform, sendBit, sampleBit, endBit, State.log]

@[simp] theorem run_host (l : List Micro) (s : State) : (run l s).host = s.host := by
  induction l generalizing s with
  | nil => rfl
  | cons a l ih => rw [run, List.foldl_cons, ← run, ih, perform_host]

end Sys2Proof.Machine
end

