-- ==== Sys2Proof/Laws/PerInstr.lean ====
section
/-! SUPPORT. Facts about every command as syntax, one lemma per constructor. -/

namespace Sys2Proof.Laws.EncodesLegal

/-- The word of a command is legal and carries the command's opcode (30_encoding.md R72, R75). -/
def Statement (i : Instr) : Prop := legal (encode i) = true ∧ opField (encode i) = i.opcode

theorem init : Statement .init := by unfold Statement; decide

theorem sendByte (b : Byte) : Statement (.sendByte b) := by
  have value : (encode (.sendByte b)).toNat = 2 * 2 ^ 28 + b.toNat := by
    simp only [encode, formatB, BitVec.toNat_append]
    rw [← Nat.shiftLeft_add_eq_or_of_lt b.isLt]
    simp [Nat.shiftLeft_eq]
  have h : opField (encode (.sendByte b)) = 2#4 := by
    apply BitVec.eq_of_toNat_eq
    rw [opField, BitVec.extractLsb'_toNat, value, Nat.shiftRight_eq_div_pow, BitVec.toNat_ofNat]
    have := b.isLt
    omega
  have z : sbzB (encode (.sendByte b)) = 0 := by
    apply BitVec.eq_of_toNat_eq
    rw [sbzB, BitVec.extractLsb'_toNat, value, Nat.shiftRight_eq_div_pow]
    have := b.isLt
    show _ = 0
    omega
  exact ⟨by simp [legal, h, z], h⟩

theorem recvByte : Statement .recvByte := by unfold Statement; decide

theorem readReg (a : Half) : Statement (.readReg a) := by
  have value : (encode (.readReg a)).toNat = 4 * 2 ^ 28 + a.toNat := by
    simp only [encode, formatA, BitVec.toNat_append]
    rw [← Nat.shiftLeft_add_eq_or_of_lt a.isLt]
    simp [Nat.shiftLeft_eq]
  have h : opField (encode (.readReg a)) = 4#4 := by
    apply BitVec.eq_of_toNat_eq
    rw [opField, BitVec.extractLsb'_toNat, value, Nat.shiftRight_eq_div_pow, BitVec.toNat_ofNat]
    have := a.isLt
    omega
  have z : sbzA (encode (.readReg a)) = 0 := by
    apply BitVec.eq_of_toNat_eq
    rw [sbzA, BitVec.extractLsb'_toNat, value, Nat.shiftRight_eq_div_pow]
    have := a.isLt
    show _ = 0
    omega
  exact ⟨by simp [legal, h, z], h⟩

theorem readAngle : Statement .readAngle := by unfold Statement; decide

theorem readSpeed : Statement .readSpeed := by unfold Statement; decide

theorem readStatus : Statement .readStatus := by unfold Statement; decide

end Sys2Proof.Laws.EncodesLegal
end

