-- ==== Sys2Proof/Laws/Programs.lean ====
section
/-! SUPPORT. What the sequencer's programs do, said once: one closed form per procedure of the spec. -/

namespace Sys2Proof.Machine

open Sys2Proof.Safety

theorem run_nil (s : State) : run [] s = s := rfl

theorem run_cons (a : Micro) (l : List Micro) (s : State) : run (a :: l) s = run l (perform s a) := rfl

theorem run_append (l₁ l₂ : List Micro) (s : State) : run (l₁ ++ l₂) s = run l₂ (run l₁ s) := by
  simp [run, List.foldl_append]

/-- Taking a draw moves every later draw one place forward. -/
theorem draw_tail (s : State) (k : Nat) :
    ((s.sdi.tail[k]?).getD (Config.sdiLevel (s.sampleNo + 1 + k))) = s.draw (k + 1) := by
  cases h : s.sdi with
  | nil => simp [State.draw, h, Nat.add_comm, Nat.add_left_comm]
  | cons b l => simp [State.draw, h, Nat.add_comm, Nat.add_left_comm]

/-- Dropping n draws moves every later draw n places forward. -/
theorem draw_drop (s : State) (n k : Nat) :
    ((s.sdi.drop n)[k]?).getD (Config.sdiLevel (s.sampleNo + n + k)) = s.draw (n + k) := by
  simp [State.draw, Nat.add_assoc]

/-- `TxByte(b)` drives the trace of R121 and leaves `sck` low, `sdo` at bit 0 and the byte in `SR`. -/
theorem run_txByte (b : Byte) (s : State) :
    run (txByte b) s =
      { s with sr := b, bitcnt := 8, pinSdo := b.getLsbD 0, pinSck := false, dly := 0, trace := s.trace ++ txTrace b } := by
  simp [run, txByte, txBit, perform, sendBit, endBit, State.log, State.drive, bitIndex, txTrace, txBitTrace]

/-- The byte that eight draws from the k-th on spell, the first of them bit 7. -/
def drawnByte (draw : Nat → Level) (k : Nat) : Byte :=
  [7, 6, 5, 4, 3, 2, 1, 0].foldl (fun v i => assignBit v i (draw (k + (7 - i)))) 0x00#8

/-- Bit by bit, `drawnByte` is the draws (42_register_channel.md R143). -/
theorem drawnByte_bit (draw : Nat → Level) (k j : Nat) (hj : j < 8) :
    (drawnByte draw k).getLsbD (7 - j) = draw (k + j) := by
  have all : ∀ b0 b1 b2 b3 b4 b5 b6 b7 : Bool,
      let v := assignBit (assignBit (assignBit (assignBit (assignBit (assignBit (assignBit (assignBit 0x00#8 7 b0) 6 b1) 5 b2)
        4 b3) 3 b4) 2 b5) 1 b6) 0 b7
      v.getLsbD 7 = b0 ∧ v.getLsbD 6 = b1 ∧ v.getLsbD 5 = b2 ∧ v.getLsbD 4 = b3 ∧ v.getLsbD 3 = b4 ∧ v.getLsbD 2 = b5 ∧
        v.getLsbD 1 = b6 ∧ v.getLsbD 0 = b7 := by decide
  have h := all (draw k) (draw (k + 1)) (draw (k + 2)) (draw (k + 3)) (draw (k + 4)) (draw (k + 5)) (draw (k + 6))
    (draw (k + 7))
  obtain ⟨h0, h1, h2, h3, h4, h5, h6, h7⟩ := h
  interval_cases j <;> assumption

/-- `RxByte()` drives the trace of R125, consumes eight draws, leaves the byte in `SR` and `sck` low, and leaves `sdo` alone. -/
theorem run_rxByte (s : State) :
    run rxByte s =
      { s with
        sr := drawnByte s.draw 0, bitcnt := 8, pinSck := false, dly := 0
        sdi := s.sdi.drop 8, sampleNo := s.sampleNo + 8, trace := s.trace ++ rxTrace s.draw 0 } := by
  simp [run, rxByte, rxBit, perform, sampleBit, endBit, State.log, State.drive, bitIndex, rxTrace, rxBitTrace, drawnByte,
    State.draw, Nat.add_assoc]
  simp only [← List.drop_one, List.drop_drop]

/-- The word sixteen draws spell: the first eight the high byte, the next eight the low one (R141). -/
def drawnWord (draw : Nat → Level) : Half := joinBytes (drawnByte draw 0) (drawnByte draw 8)

/-- Bit by bit, `drawnWord` is the draws: `d0` is bit 15 (42_register_channel.md R143). -/
theorem drawnWord_spells (draw : Nat → Level) : Spells draw (drawnWord draw) := by
  intro k hk
  unfold drawnWord joinBytes
  rcases Nat.lt_or_ge k 8 with h | h
  · have e : 15 - k = (7 - k) + 8 := by omega
    have := drawnByte_bit draw 0 k h
    rw [e, BitVec.getLsbD_append]
    simpa using this
  · have e : 15 - k = 7 - (k - 8) := by omega
    have := drawnByte_bit draw 8 (k - 8) (by omega)
    rw [e, BitVec.getLsbD_append]
    have hlt : 7 - (k - 8) < 8 := by omega
    rw [if_pos hlt, this]
    congr 1
    omega

/-- A 16-bit word is determined by the draws it spells. -/
theorem spells_unique (draw : Nat → Level) (v w : Half) (hv : Spells draw v) (hw : Spells draw w) : v = w := by
  refine BitVec.eq_of_getLsbD_eq fun i hi => ?_
  have e : i = 15 - (15 - i) := by omega
  rw [e, hv _ (by omega), hw _ (by omega)]

/-- `Transact(a)` drives the trace of R141, consumes sixteen draws and leaves the value they spell where `transactValue` reads it,
`cs_n` high, `sck` low and `sdo` at bit 0 of the address. -/
theorem run_transact (a : Half) (s : State) :
    run (transact a) s =
      { s with
        sr := drawnByte s.draw 8, rx16 := zextByte (drawnByte s.draw 0), bitcnt := 8, dly := 0
        pinCsN := true, pinSck := false, pinSdo := a.getLsbD 0
        sdi := s.sdi.drop 16, sampleNo := s.sampleNo + 16, trace := s.trace ++ transactTrace a s.draw } := by
  have shift : ∀ t : State, t.sdi = s.sdi.drop 8 → t.sampleNo = s.sampleNo + 8 → t.draw = fun k => s.draw (8 + k) := by
    intro t h1 h2
    funext k
    simp [State.draw, h1, h2, Nat.add_assoc]
  have rx : ∀ d : Nat → Level, rxTrace (fun k => d (8 + k)) 0 = rxTrace d 8 := by
    intro d; simp [rxTrace, rxBitTrace]
  have db : ∀ d : Nat → Level, drawnByte (fun k => d (8 + k)) 0 = drawnByte d 8 := by
    intro d; simp [drawnByte]
  simp only [transact, send, receive, run_append, run_cons, run_nil, run_txByte, run_rxByte, perform, State.log, State.drive,
    List.append_nil, lowByte, highByte]
  rw [shift _ rfl rfl, rx, db]
  simp [transactTrace, List.drop_drop]
  exact ⟨rfl, rfl⟩

/-- The value `Transact` returns is the word the draws spell. -/
theorem transactValue_run (a : Half) (s : State) : transactValue (run (transact a) s) = drawnWord s.draw := by
  rw [run_transact]
  simp only [transactValue, drawnWord, lowByte, zextByte]
  congr 1
  generalize drawnByte s.draw 0 = b
  ext i hi
  simp [BitVec.getElem_extractLsb', BitVec.getLsbD_eq_getElem hi, show i < 16 by omega]

/-- The trace of a transaction, beside its value: together what a completed read shows. -/
theorem trace_run_transact (a : Half) (s : State) : (run (transact a) s).trace = s.trace ++ transactTrace a s.draw := by
  rw [run_transact]

/-- The two programs of the Bit Transport and the one of INIT, in the same form. -/
theorem run_initProgram (s t : State) :
    run (initProgram t) s =
      { s with pinOe := true, pinCsN := true, pinSck := false, pinSdo := false, dly := 0, trace := s.trace ++ initTrace } := by
  simp [initProgram, idleLevels, run, perform, State.log, State.driveAll, State.drive, initTrace]

theorem run_sendByteProgram (s t : State) :
    run (sendByteProgram t) s =
      { s with
        sr := byteOperand t, bitcnt := 8, pinSdo := (byteOperand t).getLsbD 0, pinSck := false, dly := 0
        trace := s.trace ++ txTrace (byteOperand t) } := by
  simp [sendByteProgram, send, run_txByte]

theorem run_recvByteProgram (s t : State) :
    run (recvByteProgram t) s =
      { s with
        sr := drawnByte s.draw 0, bitcnt := 8, pinSck := false, dly := 0
        sdi := s.sdi.drop 8, sampleNo := s.sampleNo + 8, trace := s.trace ++ rxTrace s.draw 0 } :=
  run_rxByte s

end Sys2Proof.Machine
end

