-- ==== Sys2Proof/Laws/Exec.lean ====
section
/-! SUPPORT. Everything a command, an event of the host and a step can do, said once. -/

namespace Sys2Proof.Machine

open Sys2Proof.Safety

/-- The three things a command's meaning can do: wait, be rejected before INIT, or run to completion. -/
theorem runCommand_cases (i : Instr) (program : State → List Micro) (writes : State → State) (s : State) :
    (s.busy = true ∧ runCommand i program writes s = .next s) ∨
    (s.busy = false ∧ mayStart i s = false ∧ runCommand i program writes s = .next (rejectNoinit s)) ∨
    (s.busy = false ∧ mayStart i s = true ∧
      runCommand i program writes s = .next (complete (writes (run (program (start i s)) (start i s))))) := by
  unfold runCommand
  cases hb : s.busy <;> cases hm : mayStart i s <;> simp

/-- The opcode field of a command's word. -/
theorem opField_encode (i : Instr) : opField (encode i) = i.opcode := by
  cases i with
  | init => exact Sys2Proof.Laws.EncodesLegal.init.2
  | sendByte b => exact (Sys2Proof.Laws.EncodesLegal.sendByte b).2
  | recvByte => exact Sys2Proof.Laws.EncodesLegal.recvByte.2
  | readReg a => exact (Sys2Proof.Laws.EncodesLegal.readReg a).2
  | readAngle => exact Sys2Proof.Laws.EncodesLegal.readAngle.2
  | readSpeed => exact Sys2Proof.Laws.EncodesLegal.readSpeed.2
  | readStatus => exact Sys2Proof.Laws.EncodesLegal.readStatus.2

/-- A command that starts runs the program and the writes its latched opcode selects, and completes. -/
theorem exec_runs (i : Instr) (s : State) (hb : s.busy = false) (hm : mayStart i s = true) :
    exec i s = .next (finish (run (programOf (start i s)) (start i s))) := by
  cases i <;>
    simp [exec, execInit, execSendByte, execRecvByte, execReadReg, execReadAngle, execReadSpeed, execReadStatus, runCommand, hb, hm,
      finish, resultWrites, programOf, opField_encode, Instr.opcode]

/-- Every command answers a next state, in every state. -/
theorem exec_answers_next (i : Instr) (s : State) : ∃ t, exec i s = .next t := by
  cases i <;> exact (runCommand_cases _ _ _ s).elim (fun h => ⟨_, h.2⟩) (fun h => h.elim (fun h => ⟨_, h.2.2⟩) fun h => ⟨_, h.2.2⟩)

/-- Everything one host-visible event can do while no command runs. -/
theorem takeHostEvent_idle_cases (s : State) (hb : s.busy = false) :
    (s.host = [] ∧ takeHostEvent s = .next (stayIdle s)) ∨
    (∃ rest, s.host = .idle :: rest ∧ takeHostEvent s = .next (stayIdle { s with host := rest })) ∨
    (∃ rest, s.host = .reset :: rest ∧ takeHostEvent s = .next (resetBlock (stayIdle { s with host := rest }))) ∨
    (∃ w rest, s.host = .command w :: rest ∧ takeHostEvent s = present w { s with host := rest }) ∨
    (∃ w n rest, s.host = .resetDuring w n :: rest ∧
      takeHostEvent s = .next (presentThenReset w n { s with host := rest })) := by
  cases hh : s.host with
  | nil => simp [takeHostEvent, hh, hb]
  | cons e rest => cases e <;> simp [takeHostEvent, hh, hb, resetStep]

end Sys2Proof.Machine
end

