-- ==== Sys2Proof/Laws/Clock.lean ====
section
/-! SUPPORT. Everything one clock edge can do, said once, and what the sequencer's actions do not read. -/

namespace Sys2Proof.Machine

/-- An action reads neither `SEQ` nor `DLY`, leaves `SEQ` alone and sets `DLY` to 0. -/
theorem perform_update_seq (a : Micro) (s : State) (q : Seq) (d : Nat) :
    perform { s with seq := q, dly := d } a = { perform s a with seq := q } := by
  have sets : ∀ (l : List (Pin × Level)) (s : State),
      State.driveAll { s with seq := q, dly := d } l = { s.driveAll l with seq := q, dly := d } := by
    intro l
    induction l with
    | nil => intro s; rfl
    | cons p l ih =>
      intro s
      obtain ⟨pin, b⟩ := p
      have h := ih (s.drive pin b)
      cases pin <;> exact h
  cases a with
  | set pin b => cases pin <;> rfl
  | group l => simp [perform, State.log, sets]
  | wait d => rfl
  | sendBit => rfl
  | sample => rfl
  | fall => rfl
  | load v => rfl
  | holdHigh => rfl

theorem perform_dly (a : Micro) (s : State) : (perform s a).dly = 0 := by
  cases a <;> rfl

/-- A whole run reads no `SEQ` either. -/
theorem run_update_seq (l : List Micro) (s : State) (q : Seq) : run l { s with seq := q } = { run l s with seq := q } := by
  induction l generalizing s with
  | nil => rfl
  | cons a l ih => exact (congrArg (run l) (perform_update_seq a s q s.dly)).trans (ih (perform s a))

/-- The program of a running command depends on the latch and the parameters only (10_state.md R33). -/
theorem programOf_congr (s t : State) (hop : t.cmdOp = s.cmdOp) (hopnd : t.cmdOpnd = s.cmdOpnd) (hcfg : t.cfg = s.cfg) :
    programOf t = programOf s := by
  simp [programOf, hop, hopnd, hcfg, initProgram, sendByteProgram, recvByteProgram, readRegProgram, readAngleProgram,
    readSpeedProgram, readStatusProgram, byteOperand, addrOperand]

/-- The completing edge does not depend on where `SEQ` stands. -/
theorem finish_seq (s : State) (q : Seq) : finish { s with seq := q } = finish s := by
  simp only [finish, resultWrites, complete]
  split <;> rfl

/-- What every action that may happen keeps, a whole edge of actions keeps. -/
theorem advance_keeps (P : State → Prop)
    (hstep : ∀ (u : State) (a : Micro) (l : List Micro), P u → remaining u = a :: l → a.ready u = true → P (advanceOne a u))
    (n : Nat) (u : State) (hu : P u) : P (advance n u) := by
  induction n generalizing u with
  | zero => exact hu
  | succ n ih =>
    rw [advance]
    split
    · exact hu
    · rename_i a l hr
      split
      · rename_i hready
        exact ih _ (hstep u a l hu hr hready)
      · exact hu

/-- Everything one edge can do: reset, complete, go on, reject as reserved, reject before INIT, start, or nothing. -/
theorem clockEdge_cases (p : EdgeIn) (s : State) :
    (p.rst = true ∧ clockEdge p s = resetBlock s) ∨
    (p.rst = false ∧ s.busy = true ∧ remaining s = [] ∧ clockEdge p s = finish s) ∨
    (p.rst = false ∧ s.busy = true ∧ remaining s ≠ [] ∧ clockEdge p s = advance p.quota { s with dly := s.dly + 1 }) ∨
    (p.rst = false ∧ s.busy = false ∧ p.cmdValid = true ∧ (∃ r, decode p.cmdWord = .reserved r) ∧
      clockEdge p s = rejectIllegal s) ∨
    (p.rst = false ∧ s.busy = false ∧ p.cmdValid = true ∧ (∃ i, decode p.cmdWord = .command i ∧ mayStart i s = false) ∧
      clockEdge p s = rejectNoinit s) ∨
    (∃ i, p.rst = false ∧ s.busy = false ∧ p.cmdValid = true ∧ decode p.cmdWord = .command i ∧ mayStart i s = true ∧
      clockEdge p s = start i s) ∨
    (p.rst = false ∧ s.busy = false ∧ p.cmdValid = false ∧ clockEdge p s = s) := by
  cases hr : p.rst with
  | true => simp [clockEdge, hr]
  | false =>
    cases hb : s.busy with
    | true => cases hm : remaining s <;> simp [clockEdge, hr, hb, runningEdge, hm]
    | false =>
      cases hv : p.cmdValid with
      | false => simp [clockEdge, hr, hb, hv]
      | true =>
        cases hd : decode p.cmdWord with
        | reserved r => simp [clockEdge, hr, hb, hv, State.cmdReady, acceptingEdge, hd]
        | command i =>
          cases hs : mayStart i s <;> simp [clockEdge, hr, hb, hv, State.cmdReady, acceptingEdge, hd, hs]

end Sys2Proof.Machine
end

