-- ==== Sys2Proof/Tests/Slice0.lean ====
section
/-! SUPPORT. Tests: ill-formed terms refused, words written out from the spec, the vectors of 95_test_vectors.md (each test names its row),
and for every statement with hypotheses a witness that meets them. -/

namespace Sys2Proof.Tests

open Sys2Proof Sys2Proof.Machine Sys2Proof.Safety

/-! ## Helpers -/

/-- Test configuration TC1 of 95_test_vectors.md, with dwells of one cycle (no vector depends on them). -/
def tc1 : Config := ⟨0x8021#16, 0x8031#16, 0x8001#16, 1, 1, 1, 1, 1⟩

/-- After reset, under TC1. -/
def fresh : State := { State.reset with cfg := tc1 }

/-- After INIT, under TC1. -/
def ready : State := { fresh with pinOe := true, initDone := true }

/-- After INIT, with the sixteen draws that spell this reply. -/
def reply (v : Half) : State := { ready with sdi := (List.range 16).map fun k => v.getLsbD (15 - k) }

/-- After INIT, with the eight draws that spell this byte. -/
def replyByte (v : Byte) : State := { ready with sdi := (List.range 8).map fun k => v.getLsbD (7 - k) }

/-- In the middle of INIT: its grouped event is done. -/
def inInit : State := { fresh with busy := true, cmdOp := 0x1#4, seq := .running 1, pinOe := true }

/-- What a view reads in the next state, where there is one. -/
def after {α : Type} (o : Host.Outcome State Fault Refusal) (view : State → α) : Option α :=
  match o with
  | .next t => some (view t)
  | .fault _ => none
  | .refused _ => none

/-- An edge with `rst = 0` and no command. -/
def quiet (quota : Nat) : EdgeIn := ⟨false, false, 0#32, quota⟩

/-! ## Well-formedness: each check refuses an ill-formed term -/

theorem test_config_tInit_zero : Config.wellFormed { tc1 with tInit := 0 } = false := by decide
theorem test_config_tCss_zero : Config.wellFormed { tc1 with tCss := 0 } = false := by decide
theorem test_config_tTurn_zero : Config.wellFormed { tc1 with tTurn := 0 } = false := by decide
theorem test_config_tLo_zero : Config.wellFormed { tc1 with tLo := 0 } = false := by decide
theorem test_config_tHi_zero : Config.wellFormed { tc1 with tHi := 0 } = false := by decide
theorem test_config_tc1 : tc1.wellFormed = true := by decide
theorem test_config_board : Config.board.wellFormed = true := by decide
theorem test_asm_byte_too_wide : (Asm.sendByte 256).wellFormed = false := by decide
theorem test_asm_addr_too_wide : (Asm.readReg 65536).wellFormed = false := by decide
theorem test_step_refuses_zero_timing :
    (match step { fresh with cfg := { tc1 with tLo := 0 } } with
      | .refused .illFormedConfig => true
      | _ => false) = true := by decide

/-! ## Decoding: words written out bit by bit from 30_encoding.md R72, and the rows of V-E -/

theorem test_decode_init : decode 0b00010000000000000000000000000000#32 = .command .init := by decide
theorem test_decode_sendByte : decode 0b00100000000000000000000010110010#32 = .command (.sendByte 0xB2#8) := by decide
theorem test_decode_recvByte : decode 0b00110000000000000000000000000000#32 = .command .recvByte := by decide
theorem test_decode_readReg : decode 0b01000000000000001111111111111111#32 = .command (.readReg 0xFFFF#16) := by decide
theorem test_decode_readAngle : decode 0b01010000000000000000000000000000#32 = .command .readAngle := by decide
theorem test_decode_readSpeed : decode 0b01100000000000000000000000000000#32 = .command .readSpeed := by decide
theorem test_decode_readStatus : decode 0b01110000000000000000000000000000#32 = .command .readStatus := by decide
theorem test_decode_reserved :
    [0x200001B2#32, 0x30000001#32, 0x40010000#32, 0x00000000#32, 0x80000000#32, 0xF0000000#32, 0x1FFFFFFF#32].map legal =
      List.replicate 7 false := by decide
theorem test_decode_table_word : decodeTableWord 32 0x40000021 = some (.readReg 0x0021#16) := by decide

/-! ## One step of each command -/

/-- V-I, first row. -/
theorem test_init_after_reset :
    after (step (State.reset.withFetchWord 32 0x10000000)) (fun t => (t.flags, t.csNPort, t.sckPort, t.sdoPort, t.trace)) =
      some (0x0002#16, some true, some false, some false, initTrace) := by decide

/-- V-I, second and third rows: the sticky errors are cleared, `sdo` goes low. -/
theorem test_init_again :
    after (exec .init { ready with errIllegal := true, errNoinit := true, pinSdo := true }) (fun t => (t.flags, t.pinSdo)) =
      some (0x0002#16, false) := by decide

/-- T-1: the levels of `sdo` at the eight rises, and the end. -/
theorem test_sendByte_0xB2 :
    after (exec (.sendByte 0xB2#8) ready) (fun t => (atRises .sdo false t.trace, t.trace.length, t.pinSdo, t.pinSck, t.pinCsN)) =
      some ([true, false, true, true, false, false, true, false], 40, false, false, true) := by decide

/-- T-4: the last bit stays on `sdo`. -/
theorem test_sendByte_0x01 :
    after (exec (.sendByte 0x01#8) ready) (fun t => (atRises .sdo false t.trace, t.pinSdo)) =
      some ([false, false, false, false, false, false, false, true], true) := by decide

/-- T-6. -/
theorem test_recvByte_0xB2 :
    after (exec .recvByte { ready with sdi := [true, false, true, true, false, false, true, false] }) (·.result) =
      some 0x00B2#16 := by decide

/-- T-8 and T-10: bits 15:8 are 0, `sdo` stays 1 through the receive. -/
theorem test_recvByte_ones :
    after (exec .recvByte { replyByte 0xFF#8 with pinSdo := true, result := 0xABCD#16 }) (fun t => (t.result, t.pinSdo)) =
      some (0x00FF#16, true) := by decide

set_option maxRecDepth 4000 in
/-- R-1 and P5. -/
theorem test_readReg_0x0021 :
    after (exec (.readReg 0x0021#16) (reply 0x8002#16))
      (fun t => (t.result, t.trace.length, (atRises .sdo false t.trace).take 16, t.pinSdo)) =
      some (0x8002#16, 164,
        [false, false, false, false, false, false, false, false, false, false, true, false, false, false, false, true],
        true) := by decide

/-- R-3: 0xFFFF is returned as is and sets no flag. -/
theorem test_readReg_all_ones :
    after (exec (.readReg 0xFFFF#16) (reply 0xFFFF#16)) (fun t => (t.result, t.flags, t.pinSdo)) =
      some (0xFFFF#16, 0x0002#16, true) := by decide

/-- P1, the first READ_ANGLE: 180 degrees. -/
theorem test_readAngle_half_turn :
    after (exec .readAngle (reply 0x4000#16)) (fun t => (t.result, t.angle, t.flags, t.pinSdo)) =
      some (0x4000#16, 0x43340000#32, 0x0002#16, true) := by decide

/-- P1, the second READ_ANGLE: the sentinel. -/
theorem test_readAngle_sentinel :
    after (exec .readAngle (reply 0xFFFF#16)) (fun t => (t.result, t.angle, t.flags)) =
      some (0xFFFF#16, 0xBF800000#32, 0x0006#16) := by decide

/-- V-A: the construction of the angle word on the other rows of the table. -/
theorem test_angle_words :
    [0x0000#16, 0x0001#16, 0x0002#16, 0x0800#16, 0x1234#16, 0x3FFF#16, 0x5555#16, 0x6000#16, 0x7FFF#16, 0x8000#16, 0x8001#16,
      0xAAAA#16, 0xFFFE#16].map angleOf =
    [0x00000000#32, 0x3C340000#32, 0x3CB40000#32, 0x41B40000#32, 0x424CC900#32, 0x4333FD30#32, 0x436FFF10#32, 0x43870000#32,
      0x43B3FE98#32, 0x00000000#32, 0x3C340000#32, 0x42EFFC40#32, 0x43B3FD30#32] := by decide

/-- P2: READ_SPEED of 0x7F9C is -100. -/
theorem test_readSpeed_minus_100 :
    after (exec .readSpeed (reply 0x7F9C#16)) (fun t => (t.result, t.result.toInt)) = some (0xFF9C#16, -100) := by decide

/-- V-S: bit 15 is discarded, bit 14 is the sign. -/
theorem test_readSpeed_words :
    [0x3FFF#16, 0x4000#16, 0x5678#16, 0x8000#16, 0xBFFF#16, 0xC000#16, 0xFFFF#16].map speedOf =
      [0x3FFF#16, 0xC000#16, 0xD678#16, 0x0000#16, 0x3FFF#16, 0xC000#16, 0xFFFF#16] := by decide

set_option maxRecDepth 4000 in
/-- P2: READ_STATUS, and the address it sends. -/
theorem test_readStatus_0x8001 :
    after (exec .readStatus (reply 0x8001#16)) (fun t => (t.result, t.angleErr, (atRises .sdo false t.trace).take 2)) =
      some (0x8001#16, false, [true, false]) := by decide

/-! ## Dispatch, reset and the clock level -/

/-- V-D, first row. -/
theorem test_transfer_before_init :
    after (step (fresh.withFetchWord 32 0x70000000)) (fun t => (t.flags, t.csNPort, t.trace)) = some (0x0010#16, none, []) := by decide

/-- V-D, second row: illegal ranks above not initialised. -/
theorem test_reserved_before_init :
    after (step (fresh.withFetchWord 32 0x00000000)) (·.flags) = some 0x0008#16 := by decide

/-- V-D, third row. -/
theorem test_reserved_init_word :
    after (step (fresh.withFetchWord 32 0x10000001)) (·.flags) = some 0x0008#16 := by decide

/-- V-D, last row: a word presented while BUSY = 1 is not accepted. -/
theorem test_word_waits : clockEdge ⟨false, true, 0x50000000#32, 0⟩ inInit = { inInit with dly := 1 } := by decide

/-- V-X, first row: reset during READ_ANGLE after 40 events. -/
theorem test_reset_during_readAngle :
    after (step { reply 0x4000#16 with host := [.resetDuring 0x50000000#32 40], result := 0x1234#16 })
      (fun t => (t.flags, t.result, t.angle, t.csNPort, t.trace.length)) =
      some (0x0000#16, 0x0000#16, 0x00000000#32, none, 40) := by decide

/-- INIT edge by edge: accepted, grouped event, the wait's end, completion. -/
theorem test_init_edge_by_edge :
    let s₁ := clockEdge ⟨false, true, 0x10000000#32, 5⟩ fresh
    let s₂ := clockEdge (quiet 5) s₁
    let s₃ := clockEdge (quiet 5) s₂
    let s₄ := clockEdge (quiet 5) s₃
    ([s₁, s₂, s₃, s₄].map fun s => (s.busy, s.pinOe, s.initDone)) =
      [(true, false, false), (true, true, false), (true, true, false), (false, true, true)] := by decide

/-- R78, R79: lines of the assembler as text. -/
theorem test_assemble_text :
    assembleText tc1 ["SEND_BYTE 0xB2 ; eight bits".toList, "  ; nothing".toList, "READ_REG 33".toList,
      "SEND_BYTE 0b101".toList, "READ_REG_STATUS".toList, "INIT".toList] =
      some [0x200000B2#32, 0x40000021#32, 0x20000005#32, 0x40008001#32, 0x10000000#32] := by decide

theorem test_assemble_text_error :
    assembleText tc1 ["SEND_BYTE 0x1B2".toList] = none ∧ assembleText tc1 ["READ_REG".toList] = none := by decide

/-! ## Witnesses: states and operands that meet the hypotheses of the statements -/

theorem ready_is_ready : Ready ready := ⟨by decide, by decide⟩

theorem reply_is_ready (v : Half) : Ready (reply v) := ⟨rfl, rfl⟩

theorem reply_spells (v : Half) : Spells (reply v).draw v := by
  intro k hk
  simp [State.draw, reply, List.getElem?_range hk]

theorem wit_DecodeEncodeAgree :
    (Instr.sendByte 0xFF#8).wellFormed = true ∧ decode 0x200000FF#32 = .command (.sendByte 0xFF#8) := by decide

theorem wit_TableSelectsTheDecodedCommand :
    ∃ r ∈ opRows, r.selects 0x4000FFFF#32 = true := ⟨⟨"READ_REG", 0x4#4, 0x40000000#32, 0xFFFF0000#32⟩, by decide, by decide⟩

theorem wit_AssemblerEmitsMatchOrOperand :
    assemble tc1 (.sendByte 255) = some 0x200000FF#32 ∧ assemble tc1 (.sendByte 256) = none ∧
      assemble tc1 (.readReg 65535) = some 0x4000FFFF#32 ∧ assemble tc1 (.readReg 65536) = none := by decide

theorem wit_StepRunsTheDecodedCommand :
    let s := { ready with host := [.command 0x60000000#32] }
    s.cfg.wellFormed = true ∧ s.busy = false ∧ s.host = .command 0x60000000#32 :: [] ∧
      decode 0x60000000#32 = .command .readSpeed := by decide

theorem wit_PlacedWordRunsNext :
    State.reset.cfg.wellFormed = true ∧ State.reset.busy = false ∧ State.reset.seq = .idle ∧
      decodeTableWord 32 0x10000000 = some .init := by decide

/-- The hypotheses every clause of AcceptanceChecksInOrder shares, for a word presented to this state. -/
def presented (w : Word) (s : State) : Bool :=
  let t := { s with host := [.command w] }
  let p : EdgeIn := ⟨false, true, w, 1⟩
  t.cfg.wellFormed && !t.busy && !p.rst && p.cmdValid && decide (t.host = .command p.cmdWord :: [])

/-- One witness for each case: a reserved word, a transfer before INIT, INIT itself and a transfer after it. -/
theorem wit_AcceptanceChecksInOrder :
    (presented 0x80000000#32 fresh = true ∧ legal 0x80000000#32 = false) ∧
      (presented 0x70000000#32 fresh = true ∧ legal 0x70000000#32 = true ∧ (0x70000000#32).extractLsb' 28 4 ≠ 0x1#4 ∧
        fresh.initDone = false) ∧
      (presented 0x10000000#32 fresh = true ∧ legal 0x10000000#32 = true ∧ (0x10000000#32).extractLsb' 28 4 = 0x1#4) ∧
      (presented 0x10000000#32 { ready with errIllegal := true, errNoinit := true } = true) ∧
      (presented 0x70000000#32 ready = true ∧ legal 0x70000000#32 = true ∧ ready.initDone = true) := by decide

theorem wit_TransfersBeforeInitAreRejected : Instr.recvByte ≠ .init ∧ fresh.busy = false ∧ fresh.initDone = false := by decide

theorem wit_WordWaitsWhileBusy :
    let s := { inInit with host := [.command 0x50000000#32] }
    s.busy = true ∧ s.cfg.wellFormed = true ∧ s.host = .command 0x50000000#32 :: [] := by decide

theorem wit_StickyErrorsClearOnlyByInitOrReset :
    let s := { ready with errIllegal := true, errNoinit := true, host := [.command 0x10000000#32] }
    s.errIllegal = true ∧ s.errNoinit = true ∧ after (step s) (fun t => (t.errIllegal, t.errNoinit)) = some (false, false) := by decide

theorem wit_AngleChangesOnlyByReadAngleOrReset :
    let s := { reply 0xFFFF#16 with host := [.command 0x50000000#32] }
    after (step s) (fun t => (t.angle != s.angle, t.angleErr != s.angleErr)) = some (true, true) := by decide

theorem wit_OnlyInitDrivesOnlyResetReleases :
    (fresh.pinOe = false ∧ after (step (fresh.withFetchWord 32 0x10000000)) (·.pinOe) = some true) ∧
      (ready.pinOe = true ∧ after (step { ready with host := [.reset] }) (·.pinOe) = some false) := by decide

theorem wit_CommandsWriteOnlyTheirRow :
    (after (exec .init fresh) (·.initDone) = some true) ∧ (after (exec (.sendByte 0x80#8) ready) (·.cmdOp) = some 0x2#4) ∧
      (after (exec .recvByte (replyByte 0x01#8)) (·.result) = some 0x0001#16) ∧
      (after (exec .readSpeed (reply 0x0064#16)) (·.result) = some 0x0064#16) ∧
      (after (exec .readAngle (reply 0x2000#16)) (·.angle) = some 0x42B40000#32) ∧
      (after (present 0x00000000#32 fresh) (·.errIllegal) = some true) ∧
      (after (present 0x30000000#32 fresh) (·.errNoinit) = some true) := by decide

theorem wit_InitDrivesTheIdleLevels : fresh.busy = false ∧ ready.busy = false := by decide

/-- The statements whose only hypothesis is `Ready`, at the sentinel and next to it. -/
theorem wit_ReadAngleDecodesExactly :
    (Ready (reply 0xFFFF#16) ∧ after (exec .readAngle (reply 0xFFFF#16)) (·.result) = some 0xFFFF#16) ∧
      (Ready (reply 0xFFFE#16) ∧ after (exec .readAngle (reply 0xFFFE#16)) (·.result) = some 0xFFFE#16) :=
  ⟨⟨reply_is_ready _, by decide⟩, reply_is_ready _, by decide⟩

theorem wit_TraceBoundsOfEveryCommand :
    (fresh.busy = false ∧ Instr.init = .init) ∧ (ready.busy = false ∧ ready.initDone = true) := by decide

theorem wit_ReadSpeedSignExtends : Ready (reply 0x4000#16) ∧ Spells (reply 0x4000#16).draw 0x4000#16 :=
  ⟨reply_is_ready _, reply_spells _⟩

theorem wit_PinsHoldTheLastLevelOfTheTrace :
    (fresh.busy = false ∧ Instr.init = .init) ∧ (ready.busy = false ∧ ready.initDone = true) := by decide

theorem wit_ChipSelectBracketsEveryTransaction :
    ((∃ a, Instr.readReg 0x0000#16 = .readReg a) ∧ Ready ready) ∧ (Instr.readAngle = .readAngle ∧ Ready ready) :=
  ⟨⟨⟨_, rfl⟩, ready_is_ready⟩, rfl, ready_is_ready⟩

theorem wit_LoopbackReturnsTheByte :
    let s := { ready with sdi := [true, false, true, true, false, false, true, false] }
    s.busy = false ∧ s.initDone = true ∧
      after (exec (.sendByte 0xB2#8) s) (fun t => decide ((List.range 8).map t.draw = atRises .sdo s.pinSdo t.trace)) =
      some true := by decide

/-- READ_REG between two configurations, READ_STATUS (S6) within one, and READ_SPEED with the word its draws spell. -/
theorem wit_ResultDependsOnTheDrawsOnly :
    let s := reply 0xABCD#16
    let u := { s with pinSdo := true, result := 0x0001#16 }
    let v := { u with cfg := { tc1 with addrStatus := 0x0000#16 } }
    Ready s ∧ Ready u ∧ Ready v ∧ (∀ k < 16, s.draw k = u.draw k) ∧ (∀ k < 16, s.draw k = v.draw k) ∧ s.cfg = u.cfg ∧
      (∃ a, Instr.readReg 0xFFFF#16 = .readReg a) ∧ Spells s.draw 0xABCD#16 :=
  ⟨⟨rfl, rfl⟩, ⟨rfl, rfl⟩, ⟨rfl, rfl⟩, fun _ _ => rfl, fun _ _ => rfl, rfl, ⟨_, rfl⟩, reply_spells _⟩

/-- Each way a read raw value can lie: the first and the last non-sentinel one, the sentinel, and both signs of a speed. -/
theorem wit_value_clauses :
    (0x0000#16 ≠ 0xFFFF#16) ∧ (0xFFFE#16 ≠ 0xFFFF#16) ∧ (0x4000#16).getLsbD 14 = true ∧ (0x3FFF#16).getLsbD 14 = false ∧
      (0x0001#15).toNat ≠ 0 ∧ (0x0000#15).toNat = 0 := by decide

theorem wit_OnlyReadAngleTestsTheSentinel : Ready (reply 0xFFFF#16) ∧ Spells (reply 0xFFFF#16).draw 0xFFFF#16 :=
  ⟨reply_is_ready _, reply_spells _⟩

theorem wit_ResetEdgeFromEveryState : (⟨true, true, 0x10000000#32, 1⟩ : EdgeIn).rst = true := by decide

theorem wit_ResetStepWins :
    let s := { inInit with host := [.reset, .idle] }
    s.cfg.wellFormed = true ∧ s.host = .reset :: [.idle] := by decide

set_option maxRecDepth 4000 in
theorem wit_ResetCutsTheTrace :
    let s := { reply 0x4000#16 with host := [.resetDuring 0x50000000#32 40] }
    s.cfg.wellFormed = true ∧ s.busy = false ∧ s.host = .resetDuring 0x50000000#32 40 :: [] ∧
      decode 0x50000000#32 = .command .readAngle ∧ after (exec .readAngle { s with host := [] }) (·.trace.length) = some 164 := by
  decide

theorem ready_idleInv : IdleInv ready where
  busy := by decide
  seq := by decide
  bitcnt := by decide
  csHigh := by decide
  sckLow := by decide
  driven := by decide
  untouched := by decide
  angleError := by decide

theorem wit_StepKeepsIdleInv :
    IdleInv ready ∧ after (step (ready.withFetchWord 32 0x2000000F)) (·.pinSdo) = some true := ⟨ready_idleInv, by decide⟩

theorem wit_ClockEdgeKeepsClockInv : ClockInv ready ∧ ClockInv inInit :=
  ⟨.inl ready_idleInv, .inr
    { busy := by decide, opcode := by decide, inside := ⟨1, by decide, by decide⟩, cs := by decide, sck := by decide
      bits := by decide +revert, noBits := by decide, initOp := by decide, driven := by decide, angleError := by decide
      untouched := by decide }⟩

theorem wit_HandshakeGuardsAcceptance :
    ¬ ((⟨false, true, 0x10000000#32, 1⟩ : EdgeIn).cmdValid = true ∧ inInit.cmdReady false = true) ∧
      ¬ ((quiet 1).cmdValid = true ∧ fresh.cmdReady false = true) := by decide

theorem wit_ResultsHoldWhileBusy : (quiet 3).rst = false ∧ (clockEdge (quiet 3) inInit).busy = true := by decide

theorem wit_AcceptAndCompleteDriveNoPin :
    let s := { inInit with seq := .running 2 }
    (quiet 3).rst = false ∧ fresh.busy = false ∧ (clockEdge (quiet 3) s).busy = false := by decide

theorem wit_ClockRunRefinesExec :
    let accept : EdgeIn := ⟨false, true, 0x10000000#32, 0⟩
    let ps := [quiet 5, ⟨false, true, 0x50000000#32, 5⟩]
    fresh.busy = false ∧ accept.rst = false ∧ accept.cmdValid = true ∧ decode accept.cmdWord = .command .init ∧
      (∀ p ∈ ps, p.rst = false) ∧ (quiet 0).rst = false ∧
      (∀ k ≤ ps.length, (clockRun (ps.take k) (clockEdge accept fresh)).busy = true) ∧
      (clockRun (ps ++ [quiet 0]) (clockEdge accept fresh)).busy = false := by decide

theorem wit_AcceptedCommandsComplete :
    let accept : EdgeIn := ⟨false, true, 0x30000000#32, 0⟩
    let ps := List.replicate 300 (quiet 1)
    accept.rst = false ∧ ready.busy = false ∧ (clockEdge accept ready).busy = true ∧
      (∀ p ∈ ps, p.rst = false ∧ 1 ≤ p.quota) ∧
      170 + ready.cfg.tInit + ready.cfg.tCss + ready.cfg.tTurn + 32 * (ready.cfg.tLo + ready.cfg.tHi) ≤ ps.length := by
  refine ⟨rfl, rfl, by decide, fun p hp => ?_, by rw [List.length_replicate]; decide⟩
  rw [List.eq_of_mem_replicate hp]
  decide

theorem wit_WaitsAreLowerBounds :
    let accept : EdgeIn := ⟨false, true, 0x10000000#32, 0⟩
    let ps := [quiet 5, quiet 5]
    accept.rst = false ∧ fresh.busy = false ∧ (∀ p ∈ ps, p.rst = false) ∧
      (∀ k ≤ ps.length, (clockRun (ps.take k) (clockEdge accept fresh)).busy = true) ∧
      minCycles fresh.cfg (clockRun ps (clockEdge accept fresh)).trace = 1 := by decide

end Sys2Proof.Tests
end

section
/-! SUPPORT. A step is total on well-formed configurations (00_scope.md R8; 40_command_dispatch.md R108, R109). -/

namespace Sys2Proof.Machine

/-- A configuration is accepted exactly when its five timing parameters are at least 1 (00_scope.md R8). -/
theorem wellFormed_iff (c : Config) :
    c.wellFormed = true ↔ 1 ≤ c.tInit ∧ 1 ≤ c.tCss ∧ 1 ≤ c.tTurn ∧ 1 ≤ c.tLo ∧ 1 ≤ c.tHi := by
  simp [Config.wellFormed, and_assoc]

/-- An accepted word answers a next state: it is rejected as reserved, or it is a command. -/
theorem present_answers_next (w : Word) (s : State) : ∃ t, present w s = .next t := by
  unfold present
  split
  next i _ => exact exec_answers_next i s
  next => exact ⟨_, rfl⟩

/-- While a command runs, every event of the host but a reset lets it run to completion. -/
theorem takeHostEvent_busy_cases (s : State) (hb : s.busy = true) :
    takeHostEvent s = .next (finishRunning s) ∨
    ∃ rest, s.host = .reset :: rest ∧ takeHostEvent s = .next (resetStep { s with host := rest }) := by
  cases hh : s.host with
  | nil => simp [takeHostEvent, hh, hb]
  | cons e rest => cases e <;> simp [takeHostEvent, hh, hb]

/-- Every host-visible event answers a next state, in every state. -/
theorem takeHostEvent_answers_next (s : State) : ∃ t, takeHostEvent s = .next t := by
  cases hb : s.busy with
  | true =>
    obtain h | ⟨_, _, h⟩ := takeHostEvent_busy_cases s hb
    · exact ⟨_, h⟩
    · exact ⟨_, h⟩
  | false =>
    obtain ⟨_, h⟩ | ⟨_, _, h⟩ | ⟨_, _, h⟩ | ⟨w, rest, _, h⟩ | ⟨_, _, _, _, h⟩ := takeHostEvent_idle_cases s hb
    · exact ⟨_, h⟩
    · exact ⟨_, h⟩
    · exact ⟨_, h⟩
    · exact h ▸ present_answers_next w _
    · exact ⟨_, h⟩

theorem step_of_wellFormed (s : State) (h : s.cfg.wellFormed = true) : step s = takeHostEvent s := if_pos h

theorem step_of_not_wellFormed (s : State) (h : ¬ s.cfg.wellFormed = true) : step s = .refused .illFormedConfig := if_neg h

/-- A step answers a next state exactly on a well-formed configuration. -/
theorem step_answers_next_iff (s : State) : (∃ t, step s = .next t) ↔ s.cfg.wellFormed = true := by
  refine ⟨fun ⟨t, ht⟩ => ?_, fun h => step_of_wellFormed s h ▸ takeHostEvent_answers_next s⟩
  by_contra h
  rw [step_of_not_wellFormed s h] at ht
  cases ht

/-- Settles O9: every host event answers a next state, so the check of the configuration is the only refusal. -/
theorem stepRefusesOnlyZeroTiming : Obligations.StepRefusesOnlyZeroTiming := by
  intro s
  rw [step_answers_next_iff]
  exact ⟨wellFormed_iff s.cfg, step_of_not_wellFormed s⟩

end Sys2Proof.Machine
end

section
/-! SUPPORT. The pin output registers follow the trace: each event moves a register and is logged with the level it set
(00_scope.md R11, R12). -/

namespace Sys2Proof.Machine

open Sys2Proof.Safety

/-- The pin output register of a pin (10_state.md R24). -/
def State.level (s : State) : Pin → Level
  | .oe => s.pinOe
  | .csN => s.pinCsN
  | .sck => s.pinSck
  | .sdo => s.pinSdo

@[simp] theorem drive_level (s : State) (p : Pin) (b : Level) (pin : Pin) :
    (s.drive p b).level pin = if p = pin then b else s.level pin := by
  cases p <;> cases pin <;> rfl

@[simp] theorem driveAll_level (s : State) (sets : List (Pin × Level)) (pin : Pin) :
    (s.driveAll sets).level pin = groupLevel pin (s.level pin) sets := by
  induction sets generalizing s with
  | nil => rfl
  | cons p sets ih => rw [State.driveAll, ih, drive_level, groupLevel]

@[simp] theorem drive_trace (s : State) (pin : Pin) (b : Level) : (s.drive pin b).trace = s.trace := by cases pin <;> rfl

@[simp] theorem driveAll_trace (sets : List (Pin × Level)) (s : State) : (s.driveAll sets).trace = s.trace := by
  induction sets generalizing s with
  | nil => rfl
  | cons p sets ih => rw [State.driveAll, ih, drive_trace]

@[simp] theorem log_level (s : State) (e : PinEvent) (pin : Pin) : (s.log e).level pin = s.level pin := by cases pin <;> rfl

@[simp] theorem start_level (i : Instr) (s : State) (pin : Pin) : (start i s).level pin = s.level pin := by
  cases pin <;> simp [State.level]

/-- Completion drives no pin (40_command_dispatch.md R104). -/
@[simp] theorem finish_level (s : State) (pin : Pin) : (finish s).level pin = s.level pin := by
  unfold finish resultWrites
  split <;> cases pin <;> rfl

/-- Completion adds no event (40_command_dispatch.md R104). -/
@[simp] theorem finish_trace (s : State) : (finish s).trace = s.trace := by
  unfold finish resultWrites
  split <;> rfl

/-- The level after two traces in a row is the level the second leaves, from the one the first left. -/
theorem levelAfter_append (pin : Pin) (before : Level) (tr₁ tr₂ : List PinEvent) :
    levelAfter pin before (tr₁ ++ tr₂) = levelAfter pin (levelAfter pin before tr₁) tr₂ := by
  induction tr₁ generalizing before with
  | nil => rfl
  | cons e tr₁ ih => cases e <;> exact ih _

/-- Each pin register holds the level that the trace so far leaves it at, from these levels on. -/
def PinsFollowTrace (before : Pin → Level) (s : State) : Prop := ∀ pin, s.level pin = levelAfter pin (before pin) s.trace

theorem PinsFollowTrace.of_same {before : Pin → Level} {s t : State} (h : PinsFollowTrace before s)
    (htrace : t.trace = s.trace) (hlevel : ∀ pin, t.level pin = s.level pin) : PinsFollowTrace before t := by
  intro pin
  rw [hlevel, htrace]
  exact h pin

/-- Logging an event is faithful where the register moved as the event says. -/
theorem PinsFollowTrace.log {before : Pin → Level} {s t : State} (h : PinsFollowTrace before s) (e : PinEvent)
    (htrace : t.trace = s.trace) (hlevel : ∀ pin, t.level pin = levelAfter pin (s.level pin) [e]) :
    PinsFollowTrace before (t.log e) := by
  intro pin
  rw [log_level, hlevel, h pin, ← levelAfter_append, ← htrace]
  rfl

theorem PinsFollowTrace.perform {before : Pin → Level} {s : State} (h : PinsFollowTrace before s) (a : Micro) :
    PinsFollowTrace before (perform s a) := by
  cases a with
  | set p b => exact h.log _ (drive_trace s p b) (drive_level s p b)
  | group sets => exact h.log _ (driveAll_trace sets s) (driveAll_level s sets)
  | wait d => exact h.log _ rfl fun _ => rfl
  | sendBit => exact h.log _ rfl (drive_level s .sdo _)
  | sample => exact h.log _ rfl fun pin => by cases pin <;> rfl
  | fall => exact h.log _ rfl fun pin => by cases pin <;> rfl
  | load v => exact h.of_same rfl fun pin => by cases pin <;> rfl
  | holdHigh => exact h.of_same rfl fun pin => by cases pin <;> rfl

theorem PinsFollowTrace.run {before : Pin → Level} {s : State} (h : PinsFollowTrace before s) (l : List Micro) :
    PinsFollowTrace before (run l s) := by
  induction l generalizing s with
  | nil => exact h
  | cons a l ih => exact ih (h.perform a)

theorem pinsFollowTrace_start (i : Instr) (s : State) : PinsFollowTrace s.level (start i s) := by
  intro pin
  rw [start_level, start_trace]
  rfl

theorem PinsFollowTrace.finish {before : Pin → Level} {s : State} (h : PinsFollowTrace before s) :
    PinsFollowTrace before (finish s) :=
  h.of_same (finish_trace s) (finish_level s)

/-- A legal command may start exactly when it is INIT or INIT has completed (40_command_dispatch.md R102). -/
theorem mayStart_iff (i : Instr) (s : State) : mayStart i s = true ↔ i = .init ∨ s.initDone = true := by
  cases i <;> simp [mayStart, Instr.opcode]

/-- Settles O25: the registers follow the trace from the start of the command, where the trace is empty, to its completion. -/
theorem pinsHoldTheLastLevelOfTheTrace : Obligations.PinsHoldTheLastLevelOfTheTrace := by
  intro i s hb hi
  have follow := ((pinsFollowTrace_start i s).run (programOf (start i s))).finish
  exact ⟨_, exec_runs i s hb ((mayStart_iff i s).mpr hi), follow .oe, follow .csN, follow .sck, follow .sdo⟩

end Sys2Proof.Machine
end

section
/-! SUPPORT. The waits of a running command's trace are paid for by the edges it has used (00_scope.md R12;
70_reset_and_hazards.md R243). -/

namespace Sys2Proof.Machine

open Sys2Proof.Safety

@[simp] theorem minCycles_nil (c : Config) : minCycles c [] = 0 := rfl

@[simp] theorem minCycles_append (c : Config) (tr₁ tr₂ : List PinEvent) :
    minCycles c (tr₁ ++ tr₂) = minCycles c tr₁ + minCycles c tr₂ := by
  simp [minCycles]

/-- Only a wait takes cycles that a trace must pay for. -/
theorem minCycles_perform (c : Config) (s : State) (a : Micro) (ha : ∀ d, a ≠ .wait d) :
    minCycles c (perform s a).trace = minCycles c s.trace := by
  cases a with
  | wait d => exact absurd rfl (ha d)
  | set pin b => simp [perform, minCycles]
  | group sets => simp [perform, minCycles]
  | sendBit => simp [perform, sendBit, minCycles]
  | sample => simp [perform, sampleBit, minCycles]
  | fall => simp [perform, endBit, minCycles]
  | load v => rfl
  | holdHigh => rfl

/-- A wait adds its length. -/
theorem minCycles_perform_wait (c : Config) (s : State) (d : Delay) :
    minCycles c (perform s (.wait d)).trace = minCycles c s.trace + c.cycles d := by
  simp [perform, minCycles]

/-- An action that may happen adds at most the edges counted since the action before it (00_scope.md R12). -/
theorem minCycles_perform_le (s : State) (a : Micro) (hready : a.ready s = true) :
    minCycles s.cfg (perform s a).trace ≤ minCycles s.cfg s.trace + s.dly := by
  by_cases ha : ∃ d, a = .wait d
  · obtain ⟨d, rfl⟩ := ha
    rw [minCycles_perform_wait]
    exact Nat.add_le_add_left (of_decide_eq_true hready) _
  · rw [minCycles_perform _ _ _ fun d hd => ha ⟨d, hd⟩]
    exact Nat.le_add_right _ _

/-- No command begins with a wait, so what `DLY` holds when a command starts is never counted. -/
theorem programOf_head_ne_wait (s : State) (d : Delay) (l : List Micro) : programOf s ≠ .wait d :: l := by
  unfold programOf
  split <;> simp [initProgram, sendByteProgram, recvByteProgram, readRegProgram, readAngleProgram, readSpeedProgram,
    readStatusProgram, transact, send, receive, txByte, rxByte]

/-- After this many edges of a running command, its waits so far and the wait now under way are paid for; before its first action
there is nothing to pay and `DLY` still holds an old count. -/
structure WaitsPaid (c : Config) (edges : Nat) (s : State) : Prop where
  cfg : s.cfg = c
  paid : (s.trace = [] ∧ s.seq.position = 0) ∨ minCycles c s.trace + s.dly ≤ edges

theorem WaitsPaid.minCycles_le {c : Config} {n : Nat} {s : State} (h : WaitsPaid c n s) : minCycles c s.trace ≤ n := by
  obtain ⟨htrace, _⟩ | hpaid := h.paid
  · rw [htrace, minCycles_nil]
    exact Nat.zero_le n
  · exact (Nat.le_add_right _ _).trans hpaid

theorem waitsPaid_start (i : Instr) (s : State) : WaitsPaid s.cfg 0 (start i s) where
  cfg := start_cfg i s
  paid := .inl ⟨start_trace i s, congrArg Seq.position (start_seq i s)⟩

/-- An edge counts once, for the wait now under way. -/
theorem WaitsPaid.count_edge {c : Config} {n : Nat} {s : State} (h : WaitsPaid c n s) :
    WaitsPaid c (n + 1) { s with dly := s.dly + 1 } where
  cfg := h.cfg
  paid := h.paid.imp_right Nat.succ_le_succ

theorem WaitsPaid.advanceOne {c : Config} {n : Nat} {s : State} {a : Micro} {l : List Micro} (h : WaitsPaid c n s)
    (hrem : remaining s = a :: l) (hready : a.ready s = true) : WaitsPaid c n (advanceOne a s) where
  cfg := (perform_cfg a s).trans h.cfg
  paid := by
    have hdly : (Machine.advanceOne a s).dly = 0 := perform_dly a s
    have hcycles : minCycles c (perform s a).trace ≤ n := by
      obtain ⟨htrace, hpos⟩ | hpaid := h.paid
      · have hprog : programOf s = a :: l := by simpa [remaining, hpos] using hrem
        rw [minCycles_perform c s a fun d hd => programOf_head_ne_wait s d l (hd ▸ hprog), htrace, minCycles_nil]
        exact Nat.zero_le n
      · exact (h.cfg ▸ minCycles_perform_le s a hready).trans hpaid
    exact .inr (hdly.symm ▸ hcycles)

/-- However many actions an edge performs, it pays for their waits. -/
theorem WaitsPaid.advance {c : Config} {n : Nat} {s : State} (h : WaitsPaid c n s) (quota : Nat) :
    WaitsPaid c n (advance quota s) :=
  advance_keeps (WaitsPaid c n) (fun _ _ _ hu hrem hready => hu.advanceOne hrem hready) quota s h

/-- An edge of a command that runs before and after it only performs actions. -/
theorem clockEdge_of_still_busy (p : EdgeIn) (s : State) (hb : s.busy = true) (hb' : (clockEdge p s).busy = true)
    (hrst : p.rst = false) : clockEdge p s = advance p.quota { s with dly := s.dly + 1 } := by
  obtain ⟨h, _⟩ | ⟨_, _, _, h⟩ | ⟨_, _, _, h⟩ | ⟨_, h, _⟩ | ⟨_, h, _⟩ | ⟨_, _, h, _⟩ | ⟨_, h, _⟩ := clockEdge_cases p s
  · simp [hrst] at h
  · simp [h, finish] at hb'
  · exact h
  all_goals simp [hb] at h

/-- An edge after which a command runs that did not run before is one at which it starts. -/
theorem clockEdge_of_accepted (p : EdgeIn) (s : State) (hb : s.busy = false) (hb' : (clockEdge p s).busy = true)
    (hrst : p.rst = false) : ∃ i, clockEdge p s = start i s := by
  obtain ⟨h, _⟩ | ⟨_, h, _⟩ | ⟨_, h, _⟩ | ⟨_, _, _, _, h⟩ | ⟨_, _, _, _, h⟩ | ⟨i, _, _, _, _, _, h⟩ | ⟨_, _, _, h⟩ :=
    clockEdge_cases p s
  · simp [hrst] at h
  · simp [hb] at h
  · simp [hb] at h
  · simp [h, hb] at hb'
  · simp [h, hb] at hb'
  · exact ⟨i, h⟩
  · simp [h, hb] at hb'

/-- A sequence of edges pays for the waits passed in it, one cycle an edge. -/
theorem WaitsPaid.clockRun {c : Config} (ps : List EdgeIn) {n : Nat} {s : State} (h : WaitsPaid c n s)
    (hrst : ∀ p ∈ ps, p.rst = false) (hbusy : ∀ k ≤ ps.length, (clockRun (ps.take k) s).busy = true) :
    WaitsPaid c (n + ps.length) (clockRun ps s) := by
  induction ps generalizing n s with
  | nil => exact h
  | cons p ps ih =>
    have hedge : clockEdge p s = Machine.advance p.quota { s with dly := s.dly + 1 } :=
      clockEdge_of_still_busy p s (hbusy 0 (Nat.zero_le _)) (hbusy 1 (by simp)) (hrst p List.mem_cons_self)
    have hpaid : WaitsPaid c (n + 1) (clockEdge p s) := hedge ▸ h.count_edge.advance p.quota
    have hrest := ih hpaid (fun q hq => hrst q (List.mem_cons_of_mem p hq)) fun k hk => hbusy (k + 1) (Nat.succ_le_succ hk)
    rw [List.length_cons, Nat.add_comm ps.length 1, ← Nat.add_assoc]
    exact hrest

/-- Settles O48: the command starts with nothing to pay, and every later edge pays for the waits passed at it. -/
theorem waitsAreLowerBounds : Obligations.WaitsAreLowerBounds := by
  intro s accept ps hacc hb hrst hbusy
  obtain ⟨i, hstart⟩ := clockEdge_of_accepted accept s hb (hbusy 0 (Nat.zero_le _)) hacc
  rw [hstart] at hbusy ⊢
  simpa using ((waitsPaid_start i s).clockRun ps hrst hbusy).minCycles_le

end Sys2Proof.Machine
end

section
/-! SUPPORT. Everything a command, an accepted word and a step can answer, in one form: a command that starts is a running command
stepped to its end (40_command_dispatch.md R102 to R105, R108). -/

namespace Sys2Proof.Machine

theorem exec_eq_runCommand (i : Instr) : ∃ program writes, exec i = runCommand i program writes := by
  cases i <;> exact ⟨_, _, rfl⟩

/-- A command that may not start is turned away with one flag set (40_command_dispatch.md R102). -/
theorem exec_rejects (i : Instr) (s : State) (hb : s.busy = false) (hm : mayStart i s = false) :
    exec i s = .next (rejectNoinit s) := by
  obtain ⟨program, writes, hexec⟩ := exec_eq_runCommand i
  simp [hexec, runCommand, hb, hm]

/-- A command that may start is stepped to its end, as a running one is. -/
theorem exec_starts (i : Instr) (s : State) (hb : s.busy = false) (hm : mayStart i s = true) :
    exec i s = .next (finishRunning (start i s)) := by
  rw [exec_runs i s hb hm, finishRunning, remaining, start_seq]
  rfl

/-- A word accepted and cut by a reset leaves a block in reset (70_reset_and_hazards.md R230). -/
theorem presentThenReset_eq_resetBlock (w : Word) (n : Nat) (s : State) : ∃ u, presentThenReset w n s = resetBlock u := by
  unfold presentThenReset
  split
  · exact ⟨_, rfl⟩
  · split <;> exact ⟨_, rfl⟩

/-- Everything a step can answer, and what the host and the block had to show for it. -/
inductive StepCase (s : State) : State → Prop
  /-- A running command is stepped to its end. -/
  | finishes (hb : s.busy = true) : StepCase s (finishRunning s)
  | resets (rest : List HostEvent) (hhost : s.host = .reset :: rest) : StepCase s (resetStep { s with host := rest })
  /-- A word is accepted and a reset cuts it. -/
  | cut (w : Word) (n : Nat) (rest : List HostEvent) (hb : s.busy = false) (hhost : s.host = .resetDuring w n :: rest) :
    StepCase s (presentThenReset w n { s with host := rest })
  /-- Nothing is presented. -/
  | quiet (hb : s.busy = false) (rest : List HostEvent) : StepCase s (stayIdle { s with host := rest })
  /-- A reserved word is rejected. -/
  | illegal (w : Word) (rest : List HostEvent) (hb : s.busy = false) (hhost : s.host = .command w :: rest) :
    StepCase s (rejectIllegal { s with host := rest })
  /-- A transfer is rejected before INIT. -/
  | noinit (w : Word) (rest : List HostEvent) (hb : s.busy = false) (hhost : s.host = .command w :: rest) :
    StepCase s (rejectNoinit { s with host := rest })
  /-- A command starts and is stepped to its end. -/
  | runs (w : Word) (i : Instr) (rest : List HostEvent) (hb : s.busy = false) (hhost : s.host = .command w :: rest)
    (hd : decode w = .command i) (hm : mayStart i s = true) : StepCase s (finishRunning (start i { s with host := rest }))

/-- A word accepted by an idle block is rejected as reserved, rejected before INIT, or runs (40_command_dispatch.md R102). -/
theorem present_idle_cases (w : Word) (s : State) (hb : s.busy = false) :
    ((∃ r, decode w = .reserved r) ∧ present w s = .next (rejectIllegal s)) ∨
    ∃ i, decode w = .command i ∧
      ((mayStart i s = false ∧ present w s = .next (rejectNoinit s)) ∨
        (mayStart i s = true ∧ present w s = .next (finishRunning (start i s)))) := by
  cases hd : decode w with
  | reserved r => simp [present, hd]
  | command i => cases hm : mayStart i s <;> simp [present, hd, hm, exec_rejects, exec_starts, hb]

/-- A word the host presents to an idle block is taken off its list and accepted. -/
theorem stepCase_of_present {s t : State} {w : Word} {rest : List HostEvent} (hb : s.busy = false)
    (hhost : s.host = .command w :: rest) (h : present w { s with host := rest } = .next t) : StepCase s t := by
  obtain ⟨_, hp⟩ | ⟨i, hd, ⟨_, hp⟩ | ⟨hm, hp⟩⟩ := present_idle_cases w { s with host := rest } hb <;> cases hp.symm.trans h
  · exact .illegal w rest hb hhost
  · exact .noinit w rest hb hhost
  · exact .runs w i rest hb hhost hd hm

/-- A step answers nothing but these. -/
theorem step_cases {s t : State} (h : step s = .next t) : StepCase s t := by
  have hwf : s.cfg.wellFormed = true := (step_answers_next_iff s).mp ⟨t, h⟩
  rw [step_of_wellFormed s hwf] at h
  cases hb : s.busy with
  | true =>
    obtain hstep | ⟨rest, hhost, hstep⟩ := takeHostEvent_busy_cases s hb <;> cases hstep.symm.trans h
    · exact .finishes hb
    · exact .resets rest hhost
  | false =>
    obtain ⟨hhost, hstep⟩ | ⟨rest, hhost, hstep⟩ | ⟨rest, hhost, hstep⟩ | ⟨w, rest, hhost, hstep⟩ | ⟨w, n, rest, hhost, hstep⟩ :=
      takeHostEvent_idle_cases s hb
    · cases hstep.symm.trans h
      exact .quiet hb s.host
    · cases hstep.symm.trans h
      exact .quiet hb rest
    · cases hstep.symm.trans h
      have hcase := StepCase.resets rest hhost
      rwa [resetStep, if_neg (by simp [hb])] at hcase
    · exact stepCase_of_present hb hhost (hstep.symm.trans h)
    · cases hstep.symm.trans h
      exact .cut w n rest hb hhost

theorem start_cmdOp_eq_opcode (i : Instr) (s : State) : (start i s).cmdOp = i.opcode :=
  (start_cmdOp i s).trans (opField_encode i)

theorem opcode_eq_init_iff (i : Instr) : i.opcode = 0x1#4 ↔ i = .init := by
  cases i <;> simp [Instr.opcode]

theorem opcode_eq_readAngle_iff (i : Instr) : i.opcode = 0x5#4 ↔ i = .readAngle := by
  cases i <;> simp [Instr.opcode]

/-! What a completing edge writes, over all opcodes (40_command_dispatch.md R104) -/

@[simp] theorem finish_bitcnt (s : State) : (finish s).bitcnt = s.bitcnt := by
  unfold finish resultWrites
  split <;> rfl

@[simp] theorem finish_errIllegal (s : State) : (finish s).errIllegal = s.errIllegal := by
  unfold finish resultWrites
  split <;> rfl

@[simp] theorem finish_errNoinit (s : State) : (finish s).errNoinit = s.errNoinit := by
  unfold finish resultWrites
  split <;> rfl

theorem finish_initDone_of_init {s : State} (h : s.cmdOp = 0x1#4) : (finish s).initDone = true := by
  simp [finish, resultWrites, h, initWrites]

theorem finish_initDone_of_ne_init {s : State} (h : s.cmdOp ≠ 0x1#4) : (finish s).initDone = s.initDone := by
  unfold finish resultWrites
  split
  · exact absurd (BitVec.eq_of_toNat_eq ‹_›) h
  all_goals rfl

/-- Only READ_ANGLE writes `ANGLE` and `ANGLE_ERR`, both from one raw value (43_value_decoder.md R161). -/
theorem finish_angle_cases (s : State) :
    ((finish s).angle = s.angle ∧ (finish s).angleErr = s.angleErr) ∨
    (s.cmdOp = 0x5#4 ∧ ∃ raw, (finish s).angle = angleOf raw ∧ (finish s).angleErr = angleErrOf raw) := by
  unfold finish resultWrites
  split
  case h_5 hop => exact .inr ⟨BitVec.eq_of_toNat_eq hop, _, rfl, rfl⟩
  all_goals exact .inl ⟨rfl, rfl⟩

end Sys2Proof.Machine
end

section
/-! SUPPORT. What the programs of the seven commands have in common: which pins they move and what they leave
(40_command_dispatch.md R103; 42_register_channel.md R144). -/

namespace Sys2Proof.Machine

open Sys2Proof.Safety

theorem programOf_of_init {s : State} (hop : s.cmdOp = 0x1#4) : programOf s = initProgram s := by
  simp [programOf, hop]

/-- The program of any latch is INIT's, a byte sent, a byte received, a transaction, or nothing. -/
theorem programOf_cases (s : State) :
    (s.cmdOp = 0x1#4 ∧ programOf s = initProgram s) ∨
    (s.cmdOp ≠ 0x1#4 ∧
      ((∃ b, programOf s = send [b]) ∨ programOf s = receive 1 ∨ (∃ a, programOf s = transact a) ∨ programOf s = [])) := by
  by_cases hop : s.cmdOp = 0x1#4
  · exact .inl ⟨hop, programOf_of_init hop⟩
  · refine .inr ⟨hop, ?_⟩
    unfold programOf
    split
    case h_1 h => exact absurd (BitVec.eq_of_toNat_eq h) hop
    case h_2 => exact .inl ⟨_, rfl⟩
    case h_3 => exact .inr (.inl rfl)
    case h_8 => exact .inr (.inr (.inr rfl))
    all_goals exact .inr (.inr (.inl ⟨_, rfl⟩))

/-- Does the action drive this pin? -/
def Micro.moves (pin : Pin) : Micro → Bool
  | .set p _ => p == pin
  | .group sets => sets.any (·.1 == pin)
  | .wait _ => false
  | .sendBit => pin == .sdo
  | .sample => false
  | .fall => pin == .sck
  | .load _ => false
  | .holdHigh => false

theorem groupLevel_of_not_mem (pin : Pin) (before : Level) (sets : List (Pin × Level))
    (h : sets.any (·.1 == pin) = false) : groupLevel pin before sets = before := by
  induction sets with
  | nil => rfl
  | cons p sets ih =>
    simp only [List.any_cons, Bool.or_eq_false_iff, beq_eq_false_iff_ne] at h
    rw [groupLevel, if_neg h.1, ih h.2]

/-- An action that does not drive a pin leaves its register alone (00_scope.md R12). -/
theorem perform_level_of_not_moves {pin : Pin} {a : Micro} (s : State) (h : a.moves pin = false) :
    (perform s a).level pin = s.level pin := by
  cases a with
  | set p b => exact (drive_level s p b pin).trans (if_neg (beq_eq_false_iff_ne.mp h))
  | group sets => exact (driveAll_level s sets pin).trans (groupLevel_of_not_mem pin _ sets h)
  | wait d => exact log_level s _ pin
  | sendBit => exact (drive_level s .sdo _ pin).trans (if_neg (beq_eq_false_iff_ne.mp h).symm)
  | sample => cases pin <;> rfl
  | fall => exact (drive_level s .sck false pin).trans (if_neg (beq_eq_false_iff_ne.mp h).symm)
  | load v => cases pin <;> rfl
  | holdHigh => cases pin <;> rfl

theorem run_level_of_not_moves {pin : Pin} {l : List Micro} (s : State) (h : ∀ a ∈ l, a.moves pin = false) :
    (run l s).level pin = s.level pin := by
  induction l generalizing s with
  | nil => rfl
  | cons a l ih =>
    rw [run_cons, ih _ fun x hx => h x (List.mem_cons_of_mem a hx), perform_level_of_not_moves s (h a List.mem_cons_self)]

/-- A byte sent drives `sck` and `sdo` only (41_bit_transport.md R121). -/
theorem not_moves_of_mem_txByte {pin : Pin} (hsck : pin ≠ .sck) (hsdo : pin ≠ .sdo) (b : Byte) :
    ∀ a ∈ txByte b, a.moves pin = false := by
  simp [txByte, txBit, Micro.moves, hsck, hsck.symm, hsdo]

/-- A byte received drives `sck` only (41_bit_transport.md R125). -/
theorem not_moves_of_mem_rxByte {pin : Pin} (hsck : pin ≠ .sck) : ∀ a ∈ rxByte, a.moves pin = false := by
  simp [rxByte, rxBit, Micro.moves, hsck, hsck.symm]

theorem not_moves_of_mem_send {pin : Pin} (hsck : pin ≠ .sck) (hsdo : pin ≠ .sdo) (bytes : List Byte) :
    ∀ a ∈ send bytes, a.moves pin = false := by
  induction bytes with
  | nil => exact List.forall_mem_nil _
  | cons b bytes ih => exact List.forall_mem_append.mpr ⟨not_moves_of_mem_txByte hsck hsdo b, ih⟩

theorem not_moves_of_mem_receive {pin : Pin} (hsck : pin ≠ .sck) (n : Nat) : ∀ a ∈ receive n, a.moves pin = false := by
  induction n using receive.induct with
  | case1 => exact List.forall_mem_nil _
  | case2 => exact not_moves_of_mem_rxByte hsck
  | case3 n ih => exact List.forall_mem_append.mpr ⟨not_moves_of_mem_rxByte hsck, List.forall_mem_cons.mpr ⟨rfl, ih⟩⟩

/-- A transaction drives no pin but `cs_n`, `sck` and `sdo` (42_register_channel.md R141). -/
theorem not_moves_oe_of_mem_transact (addr : Half) : ∀ a ∈ transact addr, a.moves .oe = false := by
  simp only [transact, List.forall_mem_append]
  exact ⟨⟨⟨⟨by simp [Micro.moves], not_moves_of_mem_send (by decide) (by decide) _⟩, by simp [Micro.moves]⟩,
    not_moves_of_mem_receive (by decide) 2⟩, by simp [Micro.moves]⟩

/-- No program but INIT's drives `oe`. -/
theorem not_moves_oe_of_ne_init {s : State} (hop : s.cmdOp ≠ 0x1#4) : ∀ a ∈ programOf s, a.moves .oe = false := by
  obtain ⟨h, _⟩ | ⟨_, ⟨b, hp⟩ | hp | ⟨a, hp⟩ | hp⟩ := programOf_cases s
  · exact absurd h hop
  all_goals rw [hp]
  · exact not_moves_of_mem_send (by decide) (by decide) [b]
  · exact not_moves_of_mem_receive (by decide) 1
  · exact not_moves_oe_of_mem_transact a
  · exact List.forall_mem_nil _

/-- INIT alone drives `oe`, and to 1 (44_init.md R190). -/
theorem perform_pinOe_cases {s : State} {a : Micro} (t : State) (ha : a ∈ programOf s) :
    (perform t a).pinOe = t.pinOe ∨ (s.cmdOp = 0x1#4 ∧ (perform t a).pinOe = true) := by
  by_cases hop : s.cmdOp = 0x1#4
  · have hprog : programOf s = initProgram s := by simp [programOf, hop]
    rw [programOf_of_init hop, initProgram, List.mem_pair] at ha
    obtain rfl | rfl := ha
    · exact .inr ⟨hop, rfl⟩
    · exact .inl rfl
  · exact .inl (perform_level_of_not_moves (pin := .oe) t (not_moves_oe_of_ne_init hop a ha))

end Sys2Proof.Machine
end

section
/-! SUPPORT. `BITCNT`, `cs_n` and `sck` follow the actions performed so far, and `ANGLE` is -1.0 exactly where `ANGLE_ERR` says so
(10_state.md R28, R32, R34; 43_value_decoder.md R162). -/

namespace Sys2Proof.Machine

open Sys2Proof.Safety

@[simp] theorem drive_bitcnt (s : State) (pin : Pin) (b : Level) : (s.drive pin b).bitcnt = s.bitcnt := by cases pin <;> rfl

@[simp] theorem driveAll_bitcnt (sets : List (Pin × Level)) (s : State) : (s.driveAll sets).bitcnt = s.bitcnt := by
  induction sets generalizing s with
  | nil => rfl
  | cons p sets ih => rw [State.driveAll, ih, drive_bitcnt]

theorem pinAfter_append (pin : Pin) (before : Level) (l₁ l₂ : List Micro) :
    pinAfter pin before (l₁ ++ l₂) = pinAfter pin (pinAfter pin before l₁) l₂ := by
  simp [pinAfter, List.foldl_append]

/-- One action moves `oe`, `cs_n` and `sck` as `pinAfter` says; what `sdo` gets depends on the byte sent. -/
theorem perform_level {pin : Pin} (hpin : pin ≠ .sdo) (s : State) (a : Micro) :
    (perform s a).level pin = pinAfter pin (s.level pin) [a] := by
  cases a with
  | set p b => simp [perform, pinAfter]
  | group sets => simp [perform, pinAfter]
  | wait d => exact log_level s _ pin
  | sendBit => exact perform_level_of_not_moves s (by simpa [Micro.moves] using hpin)
  | sample => cases pin <;> rfl
  | fall => cases pin <;> rfl
  | load v => cases pin <;> rfl
  | holdHigh => cases pin <;> rfl

/-- `BITCNT` is what these actions leave, once a byte transfer has begun in them; before, it is any value of its range. -/
structure BitsFollow (done : List Micro) (s : State) : Prop where
  counted : ∀ n, bitsAfter done = some n → s.bitcnt = n
  inRange : bitsAfter done = none → s.bitcnt ≤ 8

/-- One action counts as `bitsAfter` says, if no bit ends before a byte transfer has begun. -/
theorem BitsFollow.perform {done : List Micro} {s : State} {a : Micro} (h : BitsFollow done s)
    (hbegun : a = .fall → bitsAfter done ≠ none) : BitsFollow (done ++ [a]) (perform s a) := by
  have same (hbits : bitsAfter (done ++ [a]) = bitsAfter done) (hcnt : (Machine.perform s a).bitcnt = s.bitcnt) :
      BitsFollow (done ++ [a]) (Machine.perform s a) :=
    ⟨hcnt ▸ hbits ▸ h.counted, hcnt ▸ hbits ▸ h.inRange⟩
  cases a with
  | load v => exact ⟨by simp [bitsAfter, Machine.perform], by simp [bitsAfter]⟩
  | fall =>
    obtain ⟨n, hn⟩ := Option.ne_none_iff_exists'.mp (hbegun rfl)
    have hbits : bitsAfter (done ++ [.fall]) = some (n + 1) := by
      rw [bitsAfter, List.foldl_append, ← bitsAfter, hn]
      rfl
    have hcnt : (Machine.perform s .fall).bitcnt = n + 1 := congrArg (· + 1) (h.counted n hn)
    exact ⟨by simp [hbits, hcnt], by simp [hbits]⟩
  | set p b => exact same (by simp [bitsAfter]) (by simp [Machine.perform])
  | group sets => exact same (by simp [bitsAfter]) (by simp [Machine.perform])
  | wait d => exact same (by simp [bitsAfter]) rfl
  | sendBit => exact same (by simp [bitsAfter]) rfl
  | sample => exact same (by simp [bitsAfter]) rfl
  | holdHigh => exact same (by simp [bitsAfter]) rfl

/-- Where a byte transfer has begun, `BITCNT` counts. -/
theorem bitsAfter_ne_none_of_load {l : List Micro} {v : Byte} (h : .load v ∈ l) : bitsAfter l ≠ none := by
  induction l using List.reverseRecOn with
  | nil => cases h
  | append_singleton l a ih =>
    cases a with
    | load w => simp [bitsAfter]
    | _ =>
      have hl : .load v ∈ l := by simpa using h
      simpa [bitsAfter] using ih hl

/-- No bit of a byte ends before a byte transfer has begun. -/
def loadsFirst : List Micro → Bool
  | [] => true
  | .load _ :: _ => true
  | .fall :: _ => false
  | _ :: l => loadsFirst l

theorem exists_load_of_loadsFirst {before after : List Micro} (h : loadsFirst (before ++ .fall :: after) = true) :
    ∃ v, .load v ∈ before := by
  induction before with
  | nil => cases h
  | cons a before ih =>
    cases a with
    | load v => exact ⟨v, List.mem_cons_self⟩
    | fall => cases h
    | _ =>
      obtain ⟨v, hv⟩ := ih h
      exact ⟨v, List.mem_cons_of_mem _ hv⟩

/-! What a whole program leaves -/

theorem programOf_loadsFirst (s : State) : loadsFirst (programOf s) = true := by
  obtain ⟨_, hp⟩ | ⟨_, ⟨b, hp⟩ | hp | ⟨a, hp⟩ | hp⟩ := programOf_cases s <;> rw [hp] <;> rfl

/-- Every program leaves `cs_n` at 1 (42_register_channel.md R144). -/
theorem pinAfter_csN_programOf (s : State) : pinAfter .csN true (programOf s) = true := by
  obtain ⟨_, hp⟩ | ⟨_, ⟨b, hp⟩ | hp | ⟨a, hp⟩ | hp⟩ := programOf_cases s <;> rw [hp] <;> rfl

/-- Every program leaves `sck` at 0 (10_state.md R38). -/
theorem pinAfter_sck_programOf (s : State) : pinAfter .sck false (programOf s) = false := by
  obtain ⟨_, hp⟩ | ⟨_, ⟨b, hp⟩ | hp | ⟨a, hp⟩ | hp⟩ := programOf_cases s <;> rw [hp] <;> rfl

/-- Every program that transfers a byte leaves eight bits counted (10_state.md R34). -/
theorem bitsAfter_programOf (s : State) : bitsAfter (programOf s) = none ∨ bitsAfter (programOf s) = some 8 := by
  obtain ⟨_, hp⟩ | ⟨_, ⟨b, hp⟩ | hp | ⟨a, hp⟩ | hp⟩ := programOf_cases s <;> rw [hp]
  · exact .inl rfl
  · exact .inr rfl
  · exact .inr rfl
  · exact .inr rfl
  · exact .inl rfl

/-- The exponent and fraction of a number of at most 24 bits stay below the sign bit (43_value_decoder.md R163). -/
theorem exponent_add_fraction_lt {n : Nat} (hn : n ≠ 0) (hlt : n < 2 ^ 24) :
    (n.log2 + 112) * 2 ^ 23 + (n * 2 ^ (23 - n.log2) - 2 ^ 23) < 2 ^ 31 := by
  have hk : n.log2 ≤ 23 := Nat.le_of_lt_succ ((Nat.log2_lt hn).mpr hlt)
  have hfrac : n * 2 ^ (23 - n.log2) < 2 ^ 24 :=
    calc n * 2 ^ (23 - n.log2) < 2 ^ (n.log2 + 1) * 2 ^ (23 - n.log2) :=
          Nat.mul_lt_mul_of_pos_right Nat.lt_log2_self (Nat.two_pow_pos _)
      _ = 2 ^ 24 := by rw [← Nat.pow_add]; congr 1; omega
  omega

/-- The sign bit of an angle is 0 (43_value_decoder.md R163). -/
theorem f32Angle_toNat_lt (code : BitVec 15) : (f32Angle code).toNat < 2 ^ 31 := by
  have hlt : code.toNat * 360 < 2 ^ 24 := by have := code.isLt; omega
  unfold f32Angle
  by_cases hn : code.toNat * 360 = 0
  · simp [hn]
  · rw [if_neg hn, BitVec.toNat_ofNat]
    exact (Nat.mod_le _ _).trans_lt (exponent_add_fraction_lt hn hlt)

/-- No angle is the error value (43_value_decoder.md R162, R164). -/
theorem angleOf_eq_errorValue_iff (raw : Half) : angleErrOf raw = true ↔ angleOf raw = angleErrorValue := by
  have hne : f32Angle (codeOf raw) ≠ angleErrorValue := fun h =>
    absurd (f32Angle_toNat_lt (codeOf raw)) (by rw [h]; decide)
  cases herr : angleErrOf raw <;> simp [angleOf, herr, hne]

end Sys2Proof.Machine
end

section
/-! SUPPORT. How `SEQ` divides the program of a running command into what is performed and what is left (10_state.md R34). -/

namespace Sys2Proof.Machine

open Sys2Proof.Safety

/-- The actions the running command has performed (10_state.md R34). -/
def performed (s : State) : List Micro := (programOf s).take s.seq.position

theorem performed_append_remaining (s : State) : performed s ++ remaining s = programOf s := List.take_append_drop _ _

/-- Performing an action changes neither the command nor its operand, so the program stays. -/
theorem programOf_advanceOne (a : Micro) (s : State) : programOf (advanceOne a s) = programOf s :=
  programOf_congr s _ (perform_cmdOp a s) (perform_cmdOpnd a s) (perform_cfg a s)

section

variable {s : State} {a : Micro} {l : List Micro} (hrem : remaining s = a :: l)
include hrem

theorem performed_advanceOne : performed (advanceOne a s) = performed s ++ [a] := by
  have hget : (programOf s)[s.seq.position]? = some a := by
    rw [← List.head?_drop, ← remaining, hrem]
    rfl
  rw [performed, programOf_advanceOne, performed]
  exact List.take_add_one.trans (by rw [hget]; rfl)

theorem remaining_advanceOne : remaining (advanceOne a s) = l := by
  refine List.append_cancel_left (as := performed (advanceOne a s)) ?_
  rw [performed_append_remaining, programOf_advanceOne, performed_advanceOne hrem, ← performed_append_remaining s, hrem,
    List.append_assoc]
  rfl

theorem position_lt_length : s.seq.position < (programOf s).length := by
  have hlen := congrArg List.length hrem
  rw [remaining, List.length_drop, List.length_cons] at hlen
  omega

/-- The end of a running command is the end it has after its next action. -/
theorem finishRunning_advanceOne : finishRunning (advanceOne a s) = finishRunning s := by
  rw [finishRunning, remaining_advanceOne hrem, finishRunning, hrem, run_cons, advanceOne, run_update_seq, finish_seq]

/-- A bit of a byte ends only after its transfer has begun. -/
theorem bitsAfter_performed_of_fall (ha : a = .fall) : bitsAfter (performed s) ≠ none := by
  have hfirst := programOf_loadsFirst s
  rw [← performed_append_remaining s, hrem, ha] at hfirst
  obtain ⟨v, hv⟩ := exists_load_of_loadsFirst hfirst
  exact bitsAfter_ne_none_of_load hv

/-- The first action of INIT drives the idle levels (44_init.md R190). -/
theorem first_action_of_init (hop : s.cmdOp = 0x1#4) (hpos : s.seq.position = 0) : a = .group idleLevels := by
  rw [remaining, hpos, programOf_of_init hop] at hrem
  exact (List.cons.inj hrem).1.symm

end

theorem remaining_eq_nil_iff (s : State) : remaining s = [] ↔ (programOf s).length ≤ s.seq.position := List.drop_eq_nil_iff

end Sys2Proof.Machine
end

section
/-! SUPPORT. The invariants of the two levels: what an idle block keeps, what a running command keeps from its start to its completing edge
(10_state.md R24, R26, R28, R32 to R34, R38; 42_register_channel.md R144). -/

namespace Sys2Proof.Safety

open Sys2Proof.Machine

/-! The idle block -/

/-- The invariant reads neither the host, nor the sticky errors, nor the trace. -/
theorem IdleInv.update {s : State} (h : IdleInv s) (host : List HostEvent) (errIllegal errNoinit : Bool) (trace : List PinEvent) :
    IdleInv { s with host := host, errIllegal := errIllegal, errNoinit := errNoinit, trace := trace } :=
  ⟨h.busy, h.seq, h.bitcnt, h.csHigh, h.sckLow, h.driven, h.untouched, h.angleError⟩

/-- A block in reset is idle (10_state.md R35). -/
theorem idleInv_resetBlock (s : State) : IdleInv (resetBlock s) where
  busy := rfl
  seq := rfl
  bitcnt := Nat.zero_le 8
  csHigh := rfl
  sckLow := rfl
  driven := rfl
  untouched := fun _ => ⟨rfl, rfl, rfl, rfl⟩
  angleError := ⟨fun h => (by cases h), fun h => absurd h (by decide : (0x00000000#32) ≠ 0xBF800000#32)⟩

/-! The running command -/

/-- The edges counted for the wait under way are not in the invariant. -/
theorem BusyInv.update_dly {s : State} (h : BusyInv s) (d : Nat) : BusyInv { s with dly := d } :=
  ⟨h.busy, h.opcode, h.inside, h.cs, h.sck, h.bits, h.noBits, h.initOp, h.driven, h.angleError, h.untouched⟩

theorem opcode_in_range (i : Instr) : 1 ≤ i.opcode.toNat ∧ i.opcode.toNat ≤ 7 := by
  cases i <;> simp [Instr.opcode]

/-- A command starts from an idle block with nothing performed; a transfer only once the pins are driven (40_command_dispatch.md R102). -/
theorem BusyInv.of_start {s : State} {i : Instr} (h : IdleInv s) (hm : mayStart i s = true) : BusyInv (start i s) where
  busy := start_busy i s
  opcode := start_cmdOp_eq_opcode i s ▸ opcode_in_range i
  inside := ⟨0, start_seq i s, Nat.zero_le _⟩
  cs := by simp [h.csHigh, Seq.position, pinAfter]
  sck := by simp [h.sckLow, Seq.position, pinAfter]
  bits := by simp [Seq.position, bitsAfter]
  noBits := fun _ => (start_bitcnt i s).trans_le h.bitcnt
  initOp := by
    rw [start_cmdOp_eq_opcode, opcode_eq_init_iff]
    by_cases hi : i = .init
    · simp [hi]
    · have hdone : s.initDone = true := ((mayStart_iff i s).mp hm).resolve_left hi
      simp [hi, start_initDone, hdone]
  driven := by
    rw [start_cmdOp_eq_opcode, Ne, opcode_eq_init_iff, start_seq, start_pinOe, h.driven]
    rintro (hi | hpos)
    · exact ((mayStart_iff i s).mp hm).resolve_left hi
    · exact absurd hpos (by decide)
  angleError := by simpa using h.angleError
  untouched := by
    rw [start_pinOe, h.driven, start_result, start_angle, start_angleErr]
    exact fun hdone => (h.untouched hdone).2

/-- After any action of a running command the pins are driven: INIT's first action drives them, and no other releases them
(10_state.md R24). -/
theorem BusyInv.pinOe_advanceOne {s : State} {a : Micro} {l : List Micro} (h : BusyInv s) (hrem : remaining s = a :: l) :
    (advanceOne a s).pinOe = true := by
  by_cases hfirst : s.cmdOp = 0x1#4 ∧ s.seq.position = 0
  · rw [first_action_of_init hrem hfirst.1 hfirst.2]
    rfl
  · have hoe : s.pinOe = true := h.driven (by rw [Nat.one_le_iff_ne_zero]; tauto)
    have ha : a ∈ programOf s := List.mem_of_mem_drop (i := s.seq.position) (by rw [← remaining, hrem]; exact List.mem_cons_self)
    obtain hsame | ⟨_, hone⟩ := perform_pinOe_cases s ha
    · exact hsame.trans hoe
    · exact hone

/-- Every action of a running command keeps its invariant. -/
theorem BusyInv.advanceOne {s : State} {a : Micro} {l : List Micro} (h : BusyInv s) (hrem : remaining s = a :: l) :
    BusyInv (advanceOne a s) := by
  have hdone := performed_advanceOne hrem
  have hbits : BitsFollow (performed (Machine.advanceOne a s)) (Machine.advanceOne a s) := by
    have hstep := BitsFollow.perform ⟨h.bits, h.noBits⟩ (bitsAfter_performed_of_fall hrem)
    exact hdone ▸ ⟨hstep.counted, hstep.inRange⟩
  have hpin {pin : Pin} (hne : pin ≠ .sdo) {before : Level} (hpin : s.level pin = pinAfter pin before (performed s)) :
      (Machine.advanceOne a s).level pin = pinAfter pin before (performed (Machine.advanceOne a s)) := by
    rw [hdone, pinAfter_append, ← hpin]
    exact perform_level hne s a
  exact
    { busy := (perform_busy a s).trans h.busy
      opcode := perform_cmdOp a s ▸ h.opcode
      inside := ⟨_, rfl, programOf_advanceOne a s ▸ position_lt_length hrem⟩
      cs := hpin (pin := .csN) (by decide) h.cs
      sck := hpin (pin := .sck) (by decide) h.sck
      bits := hbits.counted
      noBits := hbits.inRange
      initOp := perform_initDone a s ▸ perform_cmdOp a s ▸ h.initOp
      driven := fun _ => h.pinOe_advanceOne hrem
      angleError := perform_angle a s ▸ perform_angleErr a s ▸ h.angleError
      untouched := fun hoe => absurd (h.pinOe_advanceOne hrem) (by simp [hoe]) }

/-- With the whole program performed, the completing edge leaves an idle block (40_command_dispatch.md R104). -/
theorem BusyInv.finish {s : State} (h : BusyInv s) (hrem : remaining s = []) : IdleInv (finish s) := by
  have hall : performed s = programOf s := by simpa [hrem] using performed_append_remaining s
  have hoe : s.pinOe = true := by
    refine h.driven (or_iff_not_imp_left.mpr fun hop => ?_)
    have hlen := (remaining_eq_nil_iff s).mp hrem
    rw [programOf_of_init (not_not.mp hop)] at hlen
    exact (by decide : 1 ≤ 2).trans hlen
  have hdone : (Machine.finish s).initDone = true := by
    by_cases hop : s.cmdOp = 0x1#4
    · exact finish_initDone_of_init hop
    · rw [finish_initDone_of_ne_init hop]
      exact Bool.eq_true_of_not_eq_false (mt h.initOp.mp hop)
  exact
    { busy := rfl
      seq := rfl
      bitcnt := by
        rw [finish_bitcnt]
        obtain hbits | hbits := bitsAfter_programOf s <;> rw [← hall] at hbits
        · exact h.noBits hbits
        · exact (h.bits 8 hbits).le
      csHigh := (finish_level s .csN).trans (h.cs.trans ((congrArg _ hall).trans (pinAfter_csN_programOf s)))
      sckLow := (finish_level s .sck).trans (h.sck.trans ((congrArg _ hall).trans (pinAfter_sck_programOf s)))
      driven := (finish_level s .oe).trans (hoe.trans hdone.symm)
      untouched := fun hfalse => by simp [hdone] at hfalse
      angleError := by
        obtain ⟨hangle, herr⟩ | ⟨_, raw, hangle, herr⟩ := finish_angle_cases s <;> rw [hangle, herr]
        · exact h.angleError
        · exact angleOf_eq_errorValue_iff raw }

/-- A running command stepped to its end leaves an idle block. -/
theorem BusyInv.finishRunning {s : State} (h : BusyInv s) : IdleInv (finishRunning s) := by
  induction hrem : remaining s generalizing s with
  | nil =>
    rw [Machine.finishRunning, hrem]
    exact h.finish hrem
  | cons a l ih =>
    rw [← finishRunning_advanceOne hrem]
    exact ih (h.advanceOne hrem) (remaining_advanceOne hrem)

theorem ClockInv.idle {s : State} (h : ClockInv s) (hb : s.busy = false) : IdleInv s :=
  h.resolve_right fun hbusy => by simp [hbusy.busy] at hb

theorem ClockInv.running {s : State} (h : ClockInv s) (hb : s.busy = true) : BusyInv s :=
  h.resolve_left fun hidle => by simp [hidle.busy] at hb

end Sys2Proof.Safety
end

section
/-! SUPPORT. The invariants of the two levels hold after reset and are kept by every step and every clock edge. -/

namespace Sys2Proof.Machine

open Sys2Proof.Safety

/-- Settles O40: the reset state is the block in reset, with nothing on the host's and the sensor's side. -/
theorem idleInvAtReset : Obligations.IdleInvAtReset := by
  unfold Obligations.IdleInvAtReset
  exact idleInv_resetBlock State.reset

/-- Settles O41: a step that runs a command takes the idle invariant to the running command's and back. -/
theorem stepKeepsIdleInv : Obligations.StepKeepsIdleInv := by
  intro s t h hstep
  cases step_cases hstep with
  | finishes hb => simp [h.busy] at hb
  | resets rest hhost => exact idleInv_resetBlock _
  | cut w n rest hb hhost =>
    obtain ⟨u, hu⟩ := presentThenReset_eq_resetBlock w n { s with host := rest }
    exact hu ▸ idleInv_resetBlock u
  | quiet hb rest => exact h.update rest s.errIllegal s.errNoinit []
  | illegal w rest hb hhost => exact h.update rest true s.errNoinit []
  | noinit w rest hb hhost => exact h.update rest s.errIllegal true []
  | runs w i rest hb hhost hd hm =>
    exact (BusyInv.of_start (h.update rest s.errIllegal s.errNoinit s.trace) hm).finishRunning

/-- Settles O42: an accepting edge enters the running command's invariant, the actions of an edge keep it, the completing edge leaves it. -/
theorem clockEdgeKeepsClockInv : Obligations.ClockEdgeKeepsClockInv := by
  intro s p h
  obtain ⟨_, hedge⟩ | ⟨_, hb, hrem, hedge⟩ | ⟨_, hb, _, hedge⟩ | ⟨_, hb, _, _, hedge⟩ | ⟨_, hb, _, _, hedge⟩ |
    ⟨i, _, hb, _, _, hm, hedge⟩ | ⟨_, _, _, hedge⟩ := clockEdge_cases p s <;> rw [hedge]
  · exact .inl (idleInv_resetBlock s)
  · exact .inl ((h.running hb).finish hrem)
  · exact .inr (advance_keeps BusyInv (fun _ _ _ hu hrem _ => hu.advanceOne hrem) _ _ ((h.running hb).update_dly _))
  · exact .inl ((h.idle hb).update s.host true s.errNoinit [])
  · exact .inl ((h.idle hb).update s.host s.errIllegal true [])
  · exact .inr (BusyInv.of_start (h.idle hb) hm)
  · exact h

end Sys2Proof.Machine
end

section
/-! SUPPORT. What a running command stepped to its end leaves unchanged (10_state.md R36; 40_command_dispatch.md R104). -/

namespace Sys2Proof.Machine

open Sys2Proof.Safety

@[simp] theorem finishRunning_errIllegal (s : State) : (finishRunning s).errIllegal = s.errIllegal := by
  rw [finishRunning, finish_errIllegal, run_errIllegal]

@[simp] theorem finishRunning_errNoinit (s : State) : (finishRunning s).errNoinit = s.errNoinit := by
  rw [finishRunning, finish_errNoinit, run_errNoinit]

theorem mem_programOf_of_mem_remaining {s : State} {a : Micro} (ha : a ∈ remaining s) : a ∈ programOf s :=
  List.mem_of_mem_drop ha

/-- A pin that no action of the program drives keeps its level. -/
theorem finishRunning_level {s : State} {pin : Pin} (h : ∀ a ∈ programOf s, a.moves pin = false) :
    (finishRunning s).level pin = s.level pin := by
  rw [finishRunning, finish_level, run_level_of_not_moves s fun a ha => h a (mem_programOf_of_mem_remaining ha)]

theorem run_pinOe_cases {s : State} {l : List Micro} (hl : ∀ a ∈ l, a ∈ programOf s) (t : State) :
    (run l t).pinOe = t.pinOe ∨ (s.cmdOp = 0x1#4 ∧ (run l t).pinOe = true) := by
  induction l generalizing t with
  | nil => exact .inl rfl
  | cons a l ih =>
    rw [List.forall_mem_cons] at hl
    obtain hrest | hrest := ih hl.2 (perform t a)
    · rw [run_cons, hrest]
      exact perform_pinOe_cases t hl.1
    · exact .inr hrest

/-- INIT alone drives `oe`, and to 1 (44_init.md R190). -/
theorem finishRunning_pinOe_cases (s : State) :
    (finishRunning s).pinOe = s.pinOe ∨ (s.cmdOp = 0x1#4 ∧ (finishRunning s).pinOe = true) := by
  have hfinish : (finishRunning s).pinOe = (run (remaining s) s).pinOe := finish_level _ .oe
  rw [hfinish]
  exact run_pinOe_cases (fun _ => mem_programOf_of_mem_remaining) s

theorem finishRunning_initDone_of_ne_init {s : State} (hop : s.cmdOp ≠ 0x1#4) : (finishRunning s).initDone = s.initDone := by
  rw [finishRunning, finish_initDone_of_ne_init (by rwa [run_cmdOp]), run_initDone]

theorem finishRunning_angle_of_ne_readAngle {s : State} (hop : s.cmdOp ≠ 0x5#4) :
    (finishRunning s).angle = s.angle ∧ (finishRunning s).angleErr = s.angleErr := by
  obtain ⟨hangle, herr⟩ | ⟨h, _⟩ := finish_angle_cases (run (remaining s) s)
  · exact ⟨hangle.trans (run_angle _ s), herr.trans (run_angleErr _ s)⟩
  · exact absurd ((run_cmdOp _ s).symm.trans h) hop

/-- INIT and SEND_BYTE write no `RESULT` (44_init.md R190; 41_bit_transport.md R122). -/
theorem finishRunning_result {s : State} (hop : s.cmdOp = 0x1#4 ∨ s.cmdOp = 0x2#4) : (finishRunning s).result = s.result := by
  obtain hop | hop := hop <;> simp [finishRunning, finish, resultWrites, hop, initWrites, sendByteWrites]

/-! The same for a command from its start -/

section

variable {i : Instr} (s : State)

theorem finishRunning_start_angle (hi : i ≠ .readAngle) :
    (finishRunning (start i s)).angle = s.angle ∧ (finishRunning (start i s)).angleErr = s.angleErr := by
  have hop : (start i s).cmdOp ≠ 0x5#4 := start_cmdOp_eq_opcode i s ▸ (opcode_eq_readAngle_iff i).not.mpr hi
  simpa using finishRunning_angle_of_ne_readAngle hop

theorem finishRunning_start_pinOe (hi : i ≠ .init) : (finishRunning (start i s)).pinOe = s.pinOe := by
  have hop : (start i s).cmdOp ≠ 0x1#4 := start_cmdOp_eq_opcode i s ▸ (opcode_eq_init_iff i).not.mpr hi
  exact (finishRunning_level (pin := .oe) (not_moves_oe_of_ne_init hop)).trans (start_pinOe i s)

theorem sameStickyFlags_finishRunning_start (hi : i ≠ .init) : SameStickyFlags s (finishRunning (start i s)) where
  initDone := by
    have hop : (start i s).cmdOp ≠ 0x1#4 := start_cmdOp_eq_opcode i s ▸ (opcode_eq_init_iff i).not.mpr hi
    rw [finishRunning_initDone_of_ne_init hop, start_initDone i hi]
  errIllegal := (finishRunning_errIllegal _).trans (start_errIllegal i hi s)
  errNoinit := (finishRunning_errNoinit _).trans (start_errNoinit i hi s)

theorem sameResults_finishRunning_start (hi : i.opcode = 0x1#4 ∨ i.opcode = 0x2#4) :
    SameResults s (finishRunning (start i s)) := by
  have hop : (start i s).cmdOp = 0x1#4 ∨ (start i s).cmdOp = 0x2#4 := start_cmdOp_eq_opcode i s ▸ hi
  obtain ⟨hangle, herr⟩ := finishRunning_start_angle (i := i) s (by rintro rfl; simp [Instr.opcode] at hi)
  exact ⟨(finishRunning_result hop).trans (start_result i s), hangle, herr⟩

end

end Sys2Proof.Machine
end

section
/-! SUPPORT. Which steps can clear a sticky error, change an angle or turn the pins on and off (10_state.md R24, R28 to R30, R32). -/

namespace Sys2Proof.Machine

open Sys2Proof.Safety

/-- Settles O13: a command other than INIT keeps both flags from its start to its end, and a rejection only sets one. -/
theorem stickyErrorsClearOnlyByInitOrReset : Obligations.StickyErrorsClearOnlyByInitOrReset := by
  intro s t hstep hcleared
  have kept {u : State} (hillegal : s.errIllegal = true → u.errIllegal = true) (hnoinit : s.errNoinit = true → u.errNoinit = true) :
      ¬ ((s.errIllegal = true ∧ u.errIllegal = false) ∨ (s.errNoinit = true ∧ u.errNoinit = false)) := by
    rintro (⟨hset, hclear⟩ | ⟨hset, hclear⟩)
    · simp [hillegal hset] at hclear
    · simp [hnoinit hset] at hclear
  cases step_cases hstep with
  | finishes hb => exact absurd hcleared (kept (by simp) (by simp))
  | resets rest hhost => exact .inl ⟨rest, hhost⟩
  | cut w n rest hb hhost => exact .inr (.inl ⟨w, n, rest, hb, hhost⟩)
  | quiet hb rest => exact absurd hcleared (kept id id)
  | illegal w rest hb hhost => exact absurd hcleared (kept (fun _ => rfl) id)
  | noinit w rest hb hhost => exact absurd hcleared (kept id fun _ => rfl)
  | runs w i rest hb hhost hd hm =>
    by_cases hi : i = .init
    · exact .inr (.inr ⟨w, rest, hb, hhost, hi ▸ hd⟩)
    · have hsame := sameStickyFlags_finishRunning_start { s with host := rest } hi
      exact absurd hcleared (kept (hsame.errIllegal.trans ·) (hsame.errNoinit.trans ·))

/-- Settles O14: only READ_ANGLE's completing edge writes the two, whether its command runs already or starts in this step. -/
theorem angleChangesOnlyByReadAngleOrReset : Obligations.AngleChangesOnlyByReadAngleOrReset := by
  intro s t hstep hchanged
  have kept {u : State} (h : u.angle = s.angle ∧ u.angleErr = s.angleErr) :
      ¬ (u.angle ≠ s.angle ∨ u.angleErr ≠ s.angleErr) := by simpa using h
  cases step_cases hstep with
  | finishes hb =>
    by_cases hop : s.cmdOp = 0x5#4
    · exact .inr (.inr (.inr ⟨hb, hop⟩))
    · exact absurd hchanged (kept (finishRunning_angle_of_ne_readAngle hop))
  | resets rest hhost => exact .inl ⟨rest, hhost⟩
  | cut w n rest hb hhost => exact .inr (.inl ⟨w, n, rest, hb, hhost⟩)
  | quiet hb rest => exact absurd hchanged (kept ⟨rfl, rfl⟩)
  | illegal w rest hb hhost => exact absurd hchanged (kept ⟨rfl, rfl⟩)
  | noinit w rest hb hhost => exact absurd hchanged (kept ⟨rfl, rfl⟩)
  | runs w i rest hb hhost hd hm =>
    by_cases hi : i = .readAngle
    · exact .inr (.inr (.inl ⟨w, rest, hb, hhost, hi ▸ hd⟩))
    · exact absurd hchanged (kept (finishRunning_start_angle { s with host := rest } hi))

/-- A step that turns the pins on completes INIT. -/
theorem init_of_step_drives {s t : State} (hstep : step s = .next t) (hoff : s.pinOe = false) (hon : t.pinOe = true) :
    (∃ w rest, s.busy = false ∧ s.host = .command w :: rest ∧ decode w = .command .init) ∨
      (s.busy = true ∧ s.cmdOp = 0x1#4) := by
  have unmoved {u : State} (h : u.pinOe = s.pinOe) : ¬ u.pinOe = true := by simp [h, hoff]
  cases step_cases hstep with
  | finishes hb =>
    obtain hsame | ⟨hop, _⟩ := finishRunning_pinOe_cases s
    · exact absurd hon (unmoved hsame)
    · exact .inr ⟨hb, hop⟩
  | resets rest hhost => cases hon
  | cut w n rest hb hhost =>
    obtain ⟨u, hu⟩ := presentThenReset_eq_resetBlock w n { s with host := rest }
    rw [hu] at hon
    cases hon
  | quiet hb rest => exact absurd hon (unmoved rfl)
  | illegal w rest hb hhost => exact absurd hon (unmoved rfl)
  | noinit w rest hb hhost => exact absurd hon (unmoved rfl)
  | runs w i rest hb hhost hd hm =>
    by_cases hi : i = .init
    · exact .inl ⟨w, rest, hb, hhost, hi ▸ hd⟩
    · exact absurd hon (unmoved (finishRunning_start_pinOe { s with host := rest } hi))

/-- A step that turns the pins off is a reset. -/
theorem reset_of_step_releases {s t : State} (hstep : step s = .next t) (hon : s.pinOe = true) (hoff : t.pinOe = false) :
    (∃ rest, s.host = .reset :: rest) ∨ ∃ w n rest, s.busy = false ∧ s.host = .resetDuring w n :: rest := by
  have driven {u : State} (h : u.pinOe = s.pinOe ∨ u.pinOe = true) : ¬ u.pinOe = false := by
    rw [hon, or_self] at h
    simp [h]
  cases step_cases hstep with
  | finishes hb => exact absurd hoff (driven ((finishRunning_pinOe_cases s).imp_right And.right))
  | resets rest hhost => exact .inl ⟨rest, hhost⟩
  | cut w n rest hb hhost => exact .inr ⟨w, n, rest, hb, hhost⟩
  | quiet hb rest => exact absurd hoff (driven (.inl rfl))
  | illegal w rest hb hhost => exact absurd hoff (driven (.inl rfl))
  | noinit w rest hb hhost => exact absurd hoff (driven (.inl rfl))
  | runs w i rest hb hhost hd hm =>
    have hcases := finishRunning_pinOe_cases (start i { s with host := rest })
    rw [start_pinOe] at hcases
    exact absurd hoff (driven (hcases.imp_right And.right))

/-- Settles O15: each direction by the cases of a step. -/
theorem onlyInitDrivesOnlyResetReleases : Obligations.OnlyInitDrivesOnlyResetReleases :=
  fun _ _ hstep => ⟨init_of_step_drives hstep, reset_of_step_releases hstep⟩

end Sys2Proof.Machine
end

section
/-! SUPPORT. The registers each command writes, and those it leaves out (10_state.md R36). -/

namespace Sys2Proof.Machine

open Sys2Proof.Safety

/-- Settles O11: no transfer may start before INIT. -/
theorem transfersBeforeInitAreRejected : Obligations.TransfersBeforeInitAreRejected := by
  intro i s hi hb hdone
  have hm : mayStart i s = false := Bool.eq_false_iff.mpr fun hm => by simp [mayStart_iff, hi, hdone] at hm
  exact exec_rejects i s hb hm

/-- A word decodes to a command only if it is legal and carries the command's opcode (30_encoding.md R72, R75). -/
theorem legal_and_opcode_of_decode {w : Word} {i : Instr} (h : decode w = .command i) :
    legal w = true ∧ opField w = i.opcode := by
  unfold decode at h
  split at h
  case h_1 => cases h
  case h_9 => cases h
  all_goals
    rename_i hop
    split at h <;> cases h
    rename_i hsbz
    simp [legal, ← BitVec.toNat_inj, hop, hsbz, Instr.opcode]

/-- A word that is reserved, or no INIT before INIT, is rejected with one of the two flags (40_command_dispatch.md R102). -/
theorem present_rejects {w : Word} {s : State} (hb : s.busy = false)
    (hw : legal w = false ∨ (opField w ≠ 0x1#4 ∧ s.initDone = false)) :
    present w s = .next (rejectIllegal s) ∨ present w s = .next (rejectNoinit s) := by
  obtain ⟨_, hp⟩ | ⟨i, hd, ⟨_, hp⟩ | ⟨hm, _⟩⟩ := present_idle_cases w s hb
  · exact .inl hp
  · exact .inr hp
  · obtain ⟨hlegal, hop⟩ := legal_and_opcode_of_decode hd
    obtain hillegal | ⟨hne, hdone⟩ := hw
    · simp [hlegal] at hillegal
    · rw [hop, Ne, opcode_eq_init_iff] at hne
      simp [mayStart_iff, hne, hdone] at hm

/-- After INIT every command runs to its end. -/
theorem eq_finishRunning_of_ready {i : Instr} {s t : State} (hs : Ready s) (h : exec i s = .next t) :
    t = finishRunning (start i s) := by
  rw [exec_starts i s hs.busy ((mayStart_iff i s).mpr (.inr hs.initDone))] at h
  exact (Host.Outcome.next.inj h).symm

theorem programOf_start_sendByte (b : Byte) (s : State) :
    programOf (start (.sendByte b) s) = send [byteOperand (start (.sendByte b) s)] := by
  simp [programOf, opField_encode, Instr.opcode, sendByteProgram]

theorem programOf_start_recvByte (s : State) : programOf (start .recvByte s) = receive 1 := by
  simp [programOf, opField_encode, Instr.opcode, recvByteProgram]

/-- SEND_BYTE drives no pin but `sck` and `sdo` (41_bit_transport.md R121). -/
theorem finishRunning_sendByte_level {pin : Pin} (hsck : pin ≠ .sck) (hsdo : pin ≠ .sdo) (b : Byte) (s : State) :
    (finishRunning (start (.sendByte b) s)).level pin = s.level pin := by
  rw [finishRunning_level (programOf_start_sendByte b s ▸ not_moves_of_mem_send hsck hsdo _), start_level]

/-- RECV_BYTE drives no pin but `sck` (41_bit_transport.md R125). -/
theorem finishRunning_recvByte_level {pin : Pin} (hsck : pin ≠ .sck) (s : State) :
    (finishRunning (start .recvByte s)).level pin = s.level pin := by
  rw [finishRunning_level (programOf_start_recvByte s ▸ not_moves_of_mem_receive hsck 1), start_level]

/-- Settles O16, row by row: what no action drives and no completing edge writes is unchanged. -/
theorem commandsWriteOnlyTheirRow : Obligations.CommandsWriteOnlyTheirRow := by
  refine ⟨fun s t hb h => ?init, fun b s t hs h => ?sendByte, fun s t hs h => ?recvByte, fun i s t hi hs h => ?read,
    fun s t hs h => ?readAngle, fun w s t hb hw h => ?rejected⟩
  case init =>
    cases (exec_starts .init s hb rfl).symm.trans h
    exact sameResults_finishRunning_start s (.inl rfl)
  case sendByte =>
    obtain rfl := eq_finishRunning_of_ready hs h
    exact ⟨finishRunning_start_pinOe s (by simp), finishRunning_sendByte_level (pin := .csN) (by decide) (by decide) b s,
      sameResults_finishRunning_start s (.inr rfl), sameStickyFlags_finishRunning_start s (by simp)⟩
  case recvByte =>
    obtain rfl := eq_finishRunning_of_ready hs h
    obtain ⟨hangle, herr⟩ := finishRunning_start_angle (i := .recvByte) s (by simp)
    exact ⟨finishRunning_start_pinOe s (by simp), finishRunning_recvByte_level (pin := .csN) (by decide) s,
      finishRunning_recvByte_level (pin := .sdo) (by decide) s, hangle, herr, sameStickyFlags_finishRunning_start s (by simp)⟩
  case read =>
    obtain rfl := eq_finishRunning_of_ready hs h
    have hne : i ≠ .init ∧ i ≠ .readAngle := by obtain ⟨a, rfl⟩ | rfl | rfl := hi <;> simp
    obtain ⟨hangle, herr⟩ := finishRunning_start_angle s hne.2
    exact ⟨finishRunning_start_pinOe s hne.1, hangle, herr, sameStickyFlags_finishRunning_start s hne.1⟩
  case readAngle =>
    obtain rfl := eq_finishRunning_of_ready hs h
    exact ⟨finishRunning_start_pinOe s (by simp), sameStickyFlags_finishRunning_start s (by simp)⟩
  case rejected =>
    obtain hp | hp := present_rejects hb hw <;> cases hp.symm.trans h
    · exact ⟨⟨rfl, rfl, rfl, rfl⟩, ⟨rfl, rfl, rfl⟩, rfl, rfl, .inl ⟨rfl, rfl⟩⟩
    · exact ⟨⟨rfl, rfl, rfl, rfl⟩, ⟨rfl, rfl, rfl⟩, rfl, rfl, .inr ⟨rfl, rfl⟩⟩

end Sys2Proof.Machine
end

section
/-! SUPPORT. The ports: the `FLAGS` layout, the reset table, the handshake, and the results while a command runs
(10_state.md R27, R31, R35, R37). -/

namespace Sys2Proof.Machine

open Sys2Proof.Safety

theorem getLsbD_zero_append_ofBool (n : Nat) (b₀ b₁ b₂ b₃ b₄ : Bool) (j : Nat) :
    (0#n ++ BitVec.ofBool b₄ ++ BitVec.ofBool b₃ ++ BitVec.ofBool b₂ ++ BitVec.ofBool b₁ ++ BitVec.ofBool b₀).getLsbD j =
      [b₀, b₁, b₂, b₃, b₄].getD j false := by
  rcases j with _ | _ | _ | _ | _ | j <;> simp [BitVec.getLsbD_append, BitVec.getElem_append]

/-- Bit by bit, `FLAGS` is the five flags, then zeros (10_state.md R27). -/
theorem getLsbD_flags (s : State) (j : Nat) :
    s.flags.getLsbD j = [s.busy, s.initDone, s.angleErr, s.errIllegal, s.errNoinit].getD j false :=
  getLsbD_zero_append_ofBool 11 _ _ _ _ _ j

/-- Settles O35: its clauses are the bits of `getLsbD_flags`. -/
theorem flagsLayout : Obligations.FlagsLayout := by
  intro s
  refine ⟨getLsbD_flags s 0, getLsbD_flags s 1, getLsbD_flags s 2, getLsbD_flags s 3, getLsbD_flags s 4, fun j hj => ?_⟩
  rw [getLsbD_flags, List.getD_eq_default _ _ hj]

/-- Settles O36: the reset values are `State.reset`'s, and INIT from there runs its two actions and completes. -/
theorem resetTable : Obligations.ResetTable :=
  ⟨⟨rfl, rfl, rfl, rfl, rfl, rfl, rfl, rfl, rfl, rfl, rfl, rfl⟩, _, exec_starts .init State.reset rfl rfl,
    rfl, rfl, rfl, rfl, rfl, rfl, rfl, rfl, ⟨rfl, rfl, rfl⟩, rfl, rfl, rfl, rfl⟩

/-- An edge that accepts no word does not read the port (40_command_dispatch.md R100). -/
theorem clockEdge_of_not_accepted {p : EdgeIn} {s : State} (h : ¬ (p.cmdValid = true ∧ s.cmdReady p.rst = true)) :
    clockEdge p s = if p.rst then resetBlock s else if s.busy then runningEdge p.quota s else s := by
  have hguard : (p.cmdValid && s.cmdReady p.rst) = false := by simpa using h
  simp [clockEdge, hguard]

/-- Settles O43: without acceptance the edge is the same function of `rst` and the state. -/
theorem handshakeGuardsAcceptance : Obligations.HandshakeGuardsAcceptance := by
  intro s p
  refine ⟨by simp [State.cmdReady], fun hp w v hv => ?_⟩
  rw [clockEdge_of_not_accepted hp, clockEdge_of_not_accepted (p := { p with cmdWord := w, cmdValid := v }) hv]

/-- The actions of an edge write no result register (10_state.md R31). -/
theorem sameResults_advance (n : Nat) {s u : State} (h : SameResults s u) : SameResults s (advance n u) :=
  advance_keeps (SameResults s)
    (fun v a _ hv _ _ => ⟨(perform_result a v).trans hv.result, (perform_angle a v).trans hv.angle,
      (perform_angleErr a v).trans hv.angleErr⟩) n u h

/-- Settles O44: only a completing edge writes a result, and it ends with `BUSY` at 0. -/
theorem resultsHoldWhileBusy : Obligations.ResultsHoldWhileBusy := by
  intro s p hrst hbusy
  obtain ⟨h, _⟩ | ⟨_, _, _, hedge⟩ | ⟨_, _, _, hedge⟩ | ⟨_, _, _, _, hedge⟩ | ⟨_, _, _, _, hedge⟩ | ⟨i, _, _, _, _, _, hedge⟩ |
    ⟨_, _, _, hedge⟩ := clockEdge_cases p s
  · simp [hrst] at h
  · rw [hedge] at hbusy
    cases hbusy
  all_goals rw [hedge]
  · exact sameResults_advance p.quota ⟨rfl, rfl, rfl⟩
  · exact ⟨rfl, rfl, rfl⟩
  · exact ⟨rfl, rfl, rfl⟩
  · exact ⟨start_result i s, start_angle i s, start_angleErr i s⟩
  · exact ⟨rfl, rfl, rfl⟩

end Sys2Proof.Machine
end

section
/-! SUPPORT. The four reads are one transaction at an address, and what they show is what its sixteen draws spell
(20_memory.md R58; 42_register_channel.md R141 to R143; 43_value_decoder.md R161, R165, R168). -/

namespace Sys2Proof.Machine

open Sys2Proof.Safety

/-- The address a read sends, where the command is a read. -/
def readAddress (c : Config) : Instr → Option Half
  | .readReg a => some a
  | .readAngle => some c.addrAngle
  | .readSpeed => some c.addrSpeed
  | .readStatus => some c.addrStatus
  | .init => none
  | .sendByte _ => none
  | .recvByte => none

theorem exists_readAddress {i : Instr} (hi : (∃ a, i = .readReg a) ∨ i = .readAngle ∨ i = .readSpeed ∨ i = .readStatus)
    (c : Config) : ∃ a, readAddress c i = some a := by
  obtain ⟨a, rfl⟩ | rfl | rfl | rfl := hi <;> exact ⟨_, rfl⟩

/-- The address of READ_REG is in its word, every other one in the parameters. -/
theorem readAddress_congr {i : Instr} {c c' : Config} (h : (∃ a, i = .readReg a) ∨ c = c') :
    readAddress c i = readAddress c' i := by
  obtain ⟨a, rfl⟩ | rfl := h <;> rfl

/-- READ_REG's address is latched whole (30_encoding.md R73; 40_command_dispatch.md R101). -/
theorem addrField_encode_readReg (a : Half) : addrField (encode (.readReg a)) = a :=
  BitVec.extractLsb'_append_eq_right

/-- The program of a read is one transaction at its address. -/
theorem programOf_start_read {i : Instr} {s : State} {a : Half} (ha : readAddress s.cfg i = some a) :
    programOf (start i s) = transact a := by
  have hop := start_cmdOp_eq_opcode i s
  cases i <;> cases ha <;> simp only [programOf, hop, Instr.opcode]
  case readReg => exact congrArg transact (addrField_encode_readReg a)
  all_goals rfl

/-- A read that may run is one transaction from its start, then its completing edge. -/
theorem exec_read {i : Instr} {s : State} {a : Half} (hs : Ready s) (ha : readAddress s.cfg i = some a) :
    exec i s = .next (finish (run (transact a) (start i s))) := by
  rw [exec_runs i s hs.busy ((mayStart_iff i s).mpr (.inr hs.initDone)), programOf_start_read ha]

/-- Acceptance consumes no draw (40_command_dispatch.md R103). -/
@[simp] theorem start_draw (i : Instr) (s : State) : (start i s).draw = s.draw := by
  funext k
  simp [State.draw]

/-- What a read makes of the word it received: READ_SPEED its sign-extended code, the others the word itself. -/
def readResult (i : Instr) (raw : Half) : Half := if i = .readSpeed then speedOf raw else raw

theorem readResult_readSpeed (raw : Half) : readResult .readSpeed raw = speedOf raw := rfl

theorem readResult_of_ne {i : Instr} (h : i ≠ .readSpeed) (raw : Half) : readResult i raw = raw := if_neg h

theorem finish_result_of_read {i : Instr} {c : Config} {a : Half} (ha : readAddress c i = some a) {s : State}
    (hop : s.cmdOp = i.opcode) : (finish s).result = readResult i (transactValue s) := by
  cases i <;> cases ha <;> simp only [finish, resultWrites, hop, Instr.opcode] <;> rfl

theorem finish_angle_of_readAngle {s : State} (hop : s.cmdOp = Instr.readAngle.opcode) :
    (finish s).angle = angleOf (transactValue s) ∧ (finish s).angleErr = angleErrOf (transactValue s) := by
  simp [finish, resultWrites, hop, Instr.opcode, readAngleWrites]

/-- What a completed read of an address shows, as a function of the draws: its results and its trace. -/
structure ShowsRead (i : Instr) (a : Half) (draw : Nat → Level) (t : State) : Prop where
  result : t.result = readResult i (drawnWord draw)
  angle : i = .readAngle → t.angle = angleOf (drawnWord draw)
  angleErr : i = .readAngle → t.angleErr = angleErrOf (drawnWord draw)
  trace : t.trace = transactTrace a draw

/-- Every read that may run completes, and shows its draws. -/
theorem exec_shows_read {i : Instr} {s : State} {a : Half} (hs : Ready s) (ha : readAddress s.cfg i = some a) :
    ∃ t, exec i s = .next t ∧ ShowsRead i a s.draw t := by
  have hop : (run (transact a) (start i s)).cmdOp = i.opcode := by rw [run_transact, start_cmdOp_eq_opcode]
  have hval : transactValue (run (transact a) (start i s)) = drawnWord s.draw := by rw [transactValue_run, start_draw]
  refine ⟨_, exec_read hs ha, ?result, ?angle, ?angleErr, ?trace⟩
  case result => rw [finish_result_of_read ha hop, hval]
  case angle =>
    rintro rfl
    rw [(finish_angle_of_readAngle hop).1, hval]
  case angleErr =>
    rintro rfl
    rw [(finish_angle_of_readAngle hop).2, hval]
  case trace => rw [finish_trace, trace_run_transact, start_trace, start_draw, List.nil_append]

/-- Equal draws spell equal words. -/
theorem drawnWord_congr {draw draw' : Nat → Level} (h : ∀ k < 16, draw k = draw' k) : drawnWord draw = drawnWord draw' :=
  spells_unique draw _ _ (drawnWord_spells draw) fun k hk => (drawnWord_spells draw' k hk).trans (h k hk).symm

theorem transactTrace_congr (a : Half) {draw draw' : Nat → Level} (h : ∀ k < 16, draw k = draw' k) :
    transactTrace a draw = transactTrace a draw' := by
  simp [transactTrace, rxTrace, h]

/-- The code's fifteen bits are unscaled (43_value_decoder.md R165, R166). -/
theorem getLsbD_speedOf_of_lt (raw : Half) {j : Nat} (hj : j < 15) : (speedOf raw).getLsbD j = raw.getLsbD j := by
  rw [speedOf, BitVec.getLsbD_signExtend]
  simp [codeOf, hj, show j < 16 by omega]

/-- Bit 14 is the sign (43_value_decoder.md R165, R166). -/
theorem getLsbD_speedOf_sign (raw : Half) : (speedOf raw).getLsbD 15 = raw.getLsbD 14 := by
  rw [speedOf, BitVec.getLsbD_signExtend]
  simp [codeOf, BitVec.msb_eq_getLsbD_last]

/-- Settles O29: both runs show one function of the draws, which agree; only the trace depends on the address. -/
theorem resultDependsOnTheDrawsOnly : Obligations.ResultDependsOnTheDrawsOnly := by
  intro i s s' hi hs hs' hdraw
  obtain ⟨a, ha⟩ := exists_readAddress hi s.cfg
  obtain ⟨a', ha'⟩ := exists_readAddress hi s'.cfg
  obtain ⟨t, hexec, hresult, hangle, herr, htrace⟩ := exec_shows_read hs ha
  obtain ⟨t', hexec', hresult', hangle', herr', htrace'⟩ := exec_shows_read hs' ha'
  rw [← drawnWord_congr hdraw] at hresult' hangle' herr'
  refine ⟨t, t', hexec, hexec', hresult.trans hresult'.symm, fun hne => ?word, fun hspeed raw hraw => ?speed,
    fun hang => ⟨(hangle hang).trans (hangle' hang).symm, (herr hang).trans (herr' hang).symm⟩, fun haddr => ?trace⟩
  case word =>
    rw [hresult, readResult_of_ne hne]
    exact drawnWord_spells s.draw
  case speed =>
    rw [hresult, hspeed, readResult_readSpeed, spells_unique s.draw _ _ (drawnWord_spells s.draw) hraw]
    exact ⟨fun j hj => getLsbD_speedOf_of_lt raw hj, getLsbD_speedOf_sign raw⟩
  case trace =>
    obtain rfl : a = a' := Option.some.inj (ha.symm.trans ((readAddress_congr haddr).trans ha'))
    rw [htrace, htrace', transactTrace_congr a hdraw]

end Sys2Proof.Machine
end

section
/-! SUPPORT. The command word: decoder and encoder are inverse, a word is the match of its row and its operand, and the reserved words
by the values of their fields (30_encoding.md R71 to R79). -/

namespace Sys2Proof.Machine

/-- A word is its upper and its lower part. -/
theorem extractLsb'_append_extractLsb'_zero {m n : Nat} (w : BitVec (m + n)) : w.extractLsb' n m ++ w.extractLsb' 0 n = w :=
  (BitVec.extractLsb'_append_extractLsb'_eq_extractLsb' (Nat.zero_add n).symm).trans BitVec.extractLsb'_eq_self

/-! Each format cuts a word into its fields, so a word whose `SBZ` is 0 is its format's word over its own fields (R71). -/

theorem formatN_fields {w : Word} {op : BitVec 4} (hop : opField w = op) (hsbz : sbzN w = 0) : formatN op = w := by
  have fields : opField w ++ sbzN w = w := extractLsb'_append_extractLsb'_zero (m := 4) (n := 28) w
  rwa [hop, hsbz] at fields

theorem formatB_fields {w : Word} {op : BitVec 4} (hop : opField w = op) (hsbz : sbzB w = 0) :
    formatB op (byteField w) = w := by
  have fields : opField w ++ sbzB w ++ byteField w = w := by
    rw [opField, sbzB, BitVec.extractLsb'_append_extractLsb'_eq_extractLsb' (by rfl)]
    exact extractLsb'_append_extractLsb'_zero (m := 24) (n := 8) w
  rwa [hop, hsbz] at fields

theorem formatA_fields {w : Word} {op : BitVec 4} (hop : opField w = op) (hsbz : sbzA w = 0) :
    formatA op (addrField w) = w := by
  have fields : opField w ++ sbzA w ++ addrField w = w := by
    rw [opField, sbzA, BitVec.extractLsb'_append_extractLsb'_eq_extractLsb' (by rfl)]
    exact extractLsb'_append_extractLsb'_zero (m := 16) (n := 16) w
  rwa [hop, hsbz] at fields

/-! The fields of an encoded command with an operand (R73). -/

theorem byteField_encode_sendByte (b : Byte) : byteField (encode (.sendByte b)) = b :=
  BitVec.extractLsb'_append_eq_right

theorem sbzB_encode_sendByte (b : Byte) : sbzB (encode (.sendByte b)) = 0 :=
  (BitVec.extractLsb'_append_eq_of_le (Nat.le_refl 8)).trans BitVec.extractLsb'_append_eq_right

theorem sbzA_encode_readReg (a : Half) : sbzA (encode (.readReg a)) = 0 :=
  (BitVec.extractLsb'_append_eq_of_le (Nat.le_refl 16)).trans BitVec.extractLsb'_append_eq_right

/-- The decoder undoes the encoder: the opcode selects the arm, the `SBZ` field is 0, and the operand is read back whole. -/
theorem decode_encode (i : Instr) : decode (encode i) = .command i := by
  cases i with
  | sendByte b => simp [decode, opField_encode, Instr.opcode, sbzB_encode_sendByte, byteField_encode_sendByte]
  | readReg a => simp [decode, opField_encode, Instr.opcode, sbzA_encode_readReg, addrField_encode_readReg]
  | init | recvByte | readAngle | readSpeed | readStatus => rfl

/-- The encoder undoes the decoder: a decoded word has `SBZ` at 0, so it is its format's word over its own fields. -/
theorem encode_of_decode {w : Word} {i : Instr} (h : decode w = .command i) : encode i = w := by
  have hop := (legal_and_opcode_of_decode h).2
  unfold decode at h
  split at h
  case h_1 => cases h
  case h_9 => cases h
  all_goals
    split at h <;> cases h
    rename_i hsbz
  case h_3 => exact formatB_fields hop hsbz
  case h_5 => exact formatA_fields hop hsbz
  all_goals exact formatN_fields hop hsbz

theorem decode_eq_command_iff (w : Word) (i : Instr) : decode w = .command i ↔ encode i = w :=
  ⟨encode_of_decode, fun h => h ▸ decode_encode i⟩

/-- Settles O1: one direction by the commands, the other by the decoder's arms. -/
theorem decodeEncodeAgree : Obligations.DecodeEncodeAgree :=
  ⟨fun i _ => decode_encode i, fun _ _ => encode_of_decode⟩

/-! A command's word is `match | operand` of its row (R72, R78), with the operand in the bits the mask leaves out. -/

/-- The row of the match and mask table a command belongs to (R72). -/
def rowOf : Instr → OpRow
  | .init => opRows[0]
  | .sendByte _ => opRows[1]
  | .recvByte => opRows[2]
  | .readReg _ => opRows[3]
  | .readAngle => opRows[4]
  | .readSpeed => opRows[5]
  | .readStatus => opRows[6]

theorem rowOf_mem (i : Instr) : rowOf i ∈ opRows := by cases i <;> exact List.getElem_mem _

theorem rowOf_op (i : Instr) : (rowOf i).op = i.opcode := by cases i <;> rfl

/-- The operand of a command at its place in the word; 0 for a command that has none (R73). -/
def operandWord : Instr → Word
  | .sendByte b => 0#24 ++ b
  | .readReg a => 0#16 ++ a
  | .init => 0#32
  | .recvByte => 0#32
  | .readAngle => 0#32
  | .readSpeed => 0#32
  | .readStatus => 0#32

/-! A word cut in two: the upper part and the operand are or-ed together, masked off and masked out. -/

theorem append_zero_or_zero_append {m n : Nat} (x : BitVec m) (y : BitVec n) : (x ++ 0#n) ||| (0#m ++ y) = x ++ y := by
  rw [BitVec.or_append, BitVec.or_zero, BitVec.zero_or]

theorem zero_append_and_append_zero {m n : Nat} (x : BitVec m) (y : BitVec n) : (0#m ++ y) &&& (x ++ 0#n) = 0#(m + n) := by
  rw [BitVec.and_append, BitVec.zero_and, BitVec.and_zero, BitVec.zero_append_zero]

theorem zero_append_extractLsb' {m n : Nat} (w : BitVec (m + n)) :
    0#m ++ w.extractLsb' 0 n = w &&& (0#m ++ BitVec.allOnes n) := by
  calc 0#m ++ w.extractLsb' 0 n
    _ = (w.extractLsb' n m ++ w.extractLsb' 0 n) &&& (0#m ++ BitVec.allOnes n) := by
      rw [BitVec.and_append, BitVec.and_zero, BitVec.and_allOnes]
    _ = w &&& (0#m ++ BitVec.allOnes n) := by rw [extractLsb'_append_extractLsb'_zero]

/-- `match | operand` (R78). -/
theorem encode_eq_match_or_operand (i : Instr) : encode i = (rowOf i).pattern ||| operandWord i := by
  cases i with
  | sendByte b => exact (append_zero_or_zero_append 0x200000#24 b).symm
  | readReg a => exact (append_zero_or_zero_append 0x4000#16 a).symm
  | init | recvByte | readAngle | readSpeed | readStatus => rfl

/-- No bit of the operand is under the mask. -/
theorem operandWord_and_mask (i : Instr) : operandWord i &&& (rowOf i).mask = 0#32 := by
  cases i with
  | sendByte b => exact zero_append_and_append_zero 0xFFFFFF#24 b
  | readReg a => exact zero_append_and_append_zero 0xFFFF#16 a
  | init | recvByte | readAngle | readSpeed | readStatus => rfl

theorem pattern_and_mask : ∀ r ∈ opRows, r.pattern &&& r.mask = r.pattern := by decide

/-- What a row's mask leaves of a word is the operand of a command of that row. -/
theorem exists_operandWord_eq {r : OpRow} (hr : r ∈ opRows) (w : Word) :
    ∃ i, rowOf i = r ∧ operandWord i = w &&& ~~~r.mask := by
  simp only [opRows, List.mem_cons, List.not_mem_nil, or_false] at hr
  obtain rfl | rfl | rfl | rfl | rfl | rfl | rfl := hr
  · exact ⟨.init, rfl, BitVec.and_zero.symm⟩
  · exact ⟨.sendByte (byteField w), rfl, zero_append_extractLsb' (m := 24) (n := 8) w⟩
  · exact ⟨.recvByte, rfl, BitVec.and_zero.symm⟩
  · exact ⟨.readReg (addrField w), rfl, zero_append_extractLsb' (m := 16) (n := 16) w⟩
  · exact ⟨.readAngle, rfl, BitVec.and_zero.symm⟩
  · exact ⟨.readSpeed, rfl, BitVec.and_zero.symm⟩
  · exact ⟨.readStatus, rfl, BitVec.and_zero.symm⟩

/-- A row selects exactly the words of its own commands (R72). -/
theorem selects_iff {r : OpRow} (hr : r ∈ opRows) (w : Word) :
    r.selects w = true ↔ ∃ i, rowOf i = r ∧ encode i = w := by
  rw [OpRow.selects, beq_iff_eq]
  constructor
  · intro hmatch
    obtain ⟨i, rfl, hoperand⟩ := exists_operandWord_eq hr w
    refine ⟨i, rfl, ?_⟩
    calc encode i
      _ = (w &&& (rowOf i).mask) ||| (w &&& ~~~(rowOf i).mask) := by rw [encode_eq_match_or_operand, hoperand, hmatch]
      _ = w := by rw [← BitVec.and_or_distrib_left, BitVec.or_not_self, BitVec.and_allOnes]
  · rintro ⟨i, rfl, rfl⟩
    rw [encode_eq_match_or_operand, BitVec.and_or_distrib_right, pattern_and_mask _ hr, operandWord_and_mask, BitVec.or_zero]

/-- A word matches a row of the table exactly when it decodes to a command of that row. -/
theorem selects_iff_decode {r : OpRow} (hr : r ∈ opRows) (w : Word) :
    r.selects w = true ↔ ∃ i, rowOf i = r ∧ decode w = .command i := by
  simp only [selects_iff hr, decode_eq_command_iff]

/-- Settles O3: selecting rows are rows of decoded commands, and a word decodes to one command. -/
theorem tableSelectsTheDecodedCommand : Obligations.TableSelectsTheDecodedCommand := by
  intro w r hr hsel
  obtain ⟨i, rfl, hi⟩ := (selects_iff_decode hr w).mp hsel
  refine ⟨⟨i, hi, (rowOf_op i).symm⟩, fun r' hr' hsel' => ?_⟩
  obtain ⟨i', rfl, hi'⟩ := (selects_iff_decode hr' w).mp hsel'
  cases hi.symm.trans hi'
  rfl

/-- A legal word decodes to a command: its opcode selects an arm of the decoder, and the arm's `SBZ` field is 0. -/
theorem exists_decode_of_legal {w : Word} (h : legal w = true) : ∃ i, decode w = .command i := by
  simp only [legal, Bool.or_eq_true, Bool.and_eq_true, beq_iff_eq, List.contains_iff_mem] at h
  obtain (⟨hop, hsbz⟩ | ⟨hop, hsbz⟩) | ⟨hop, hsbz⟩ := h
  case inl.inl =>
    simp only [List.mem_cons, List.not_mem_nil, or_false] at hop
    obtain hop | hop | hop | hop | hop := hop <;> simp [decode, hop, hsbz]
  all_goals simp [decode, hop, hsbz]

theorem legal_iff_exists_decode (w : Word) : legal w = true ↔ ∃ i, decode w = .command i :=
  ⟨exists_decode_of_legal, fun ⟨_, hd⟩ => (legal_and_opcode_of_decode hd).1⟩

/-- Settles O2: each of the two is decoding to a command, and R75's formula is `legal`'s own. -/
theorem legalWordsAreTheTable : Obligations.LegalWordsAreTheTable := by
  refine fun w => ⟨?table, ?formula, legal_iff_exists_decode w⟩
  case table =>
    rw [legal_iff_exists_decode]
    constructor
    · rintro ⟨i, hi⟩
      exact ⟨rowOf i, rowOf_mem i, (selects_iff_decode (rowOf_mem i) w).mpr ⟨i, rfl, hi⟩⟩
    · rintro ⟨r, hr, hsel⟩
      obtain ⟨i, _, hi⟩ := (selects_iff_decode hr w).mp hsel
      exact ⟨i, hi⟩
  case formula =>
    simp only [legal, opField, sbzN, sbzB, sbzA, Bool.or_eq_true, Bool.and_eq_true, beq_iff_eq, List.contains_iff_mem, or_assoc]

/-! The fields of a word as numbers, and the reserved words by them (R76). -/

theorem opField_toNat (w : Word) : (opField w).toNat = w.toNat / 2 ^ 28 := by
  rw [opField, BitVec.extractLsb'_toNat, Nat.shiftRight_eq_div_pow]
  omega

theorem sbzN_eq_zero_iff (w : Word) : sbzN w = 0 ↔ w.toNat % 2 ^ 28 = 0 := by
  rw [← BitVec.toNat_inj, sbzN, BitVec.extractLsb'_toNat]
  rfl

theorem sbzB_eq_zero_iff (w : Word) : sbzB w = 0 ↔ w.toNat % 2 ^ 28 / 2 ^ 8 = 0 := by
  rw [← BitVec.toNat_inj, sbzB, BitVec.extractLsb'_toNat, Nat.shiftRight_eq_div_pow]
  change _ = 0 ↔ _
  omega

theorem sbzA_eq_zero_iff (w : Word) : sbzA w = 0 ↔ w.toNat % 2 ^ 28 / 2 ^ 16 = 0 := by
  rw [← BitVec.toNat_inj, sbzA, BitVec.extractLsb'_toNat, Nat.shiftRight_eq_div_pow]
  change _ = 0 ↔ _
  omega

/-- Settles O4: in each arm of the decoder the opcode is a number, and the arm is taken as its `SBZ` field is 0 or not. -/
theorem reservedWordsByCase : Obligations.ReservedWordsByCase := by
  intro w
  simp only [← opField_toNat, Ne, ← sbzN_eq_zero_iff, ← sbzB_eq_zero_iff, ← sbzA_eq_zero_iff]
  unfold decode
  split
  case h_1 hop => simp [hop]
  case h_9 h0 h1 h2 h3 h4 h5 h6 h7 =>
    simp only [imp_false] at h0 h1 h2 h3 h4 h5 h6 h7
    have hop : 8 ≤ (opField w).toNat := by omega
    simp [h0, h1, h2, h3, h4, h5, h6, h7, hop]
  all_goals
    rename_i hop
    split
    case isTrue hsbz => simp [hop, hsbz]
    case isFalse hsbz => simpa [hop] using hsbz

/-- An operand that fits, in place: nothing of it is cut off (R78). -/
theorem zero_append_ofNat {k n : Nat} (m : Nat) (hk : k < 2 ^ n) : 0#m ++ BitVec.ofNat n k = BitVec.ofNat (m + n) k := by
  apply BitVec.eq_of_toNat_eq
  have hle : k < 2 ^ (m + n) := hk.trans_le (Nat.pow_le_pow_right (by decide) (Nat.le_add_left n m))
  simp [BitVec.toNat_append, Nat.mod_eq_of_lt hk, Nat.mod_eq_of_lt hle]

theorem assemble_of_wellFormed (c : Config) {a : Asm} (h : a.wellFormed = true) :
    assemble c a = some ((rowOf (assembleInstr c a)).pattern ||| operandWord (assembleInstr c a)) := by
  rw [assemble, if_pos h, encode_eq_match_or_operand]

/-- Settles O6: a well-formed line's word is `match | operand` of its command, READ_REG for a pseudo-instruction. -/
theorem assemblerEmitsMatchOrOperand : Obligations.AssemblerEmitsMatchOrOperand := by
  intro c
  have pseudo (a : Half) : some (encode (.readReg a)) = assemble c (.readReg a.toNat) := by
    have fits : (Asm.readReg a.toNat).wellFormed = true := decide_eq_true a.isLt
    rw [assemble, if_pos fits, assembleInstr, BitVec.ofNat_toNat, BitVec.setWidth_eq]
  refine ⟨fun n hn => ?byte, fun n hn => ?wideByte, fun n hn => ?addr, fun n hn => ?wideAddr, rfl, rfl, rfl, rfl, rfl,
    pseudo c.addrAngle, pseudo c.addrSpeed, pseudo c.addrStatus⟩
  case byte =>
    rw [assemble_of_wellFormed c (a := .sendByte n) (decide_eq_true hn), assembleInstr, operandWord, zero_append_ofNat 24 hn]
    rfl
  case wideByte => exact if_neg (by simp [Asm.wellFormed, hn])
  case addr =>
    rw [assemble_of_wellFormed c (a := .readReg n) (decide_eq_true hn), assembleInstr, operandWord, zero_append_ofNat 16 hn]
    rfl
  case wideAddr => exact if_neg (by simp [Asm.wellFormed, hn])

/-- Settles O5: seven of the words are encodings, and the other two are in two cases of R76. -/
theorem writtenWordsDecode : Obligations.WrittenWordsDecode :=
  ⟨decode_encode .init, decode_encode (.sendByte 0xB2#8), decode_encode .recvByte, decode_encode (.readReg 0x0021#16),
    decode_encode .readAngle, decode_encode .readSpeed, decode_encode .readStatus, rfl, rfl⟩

end Sys2Proof.Machine
end

section
/-! SUPPORT. The dispatcher at the two levels: an accepted word is rejected as reserved, rejected before INIT, or its command runs
(40_command_dispatch.md R100 to R103, R108). -/

namespace Sys2Proof.Machine

open Sys2Proof.Safety

/-- A step of an idle block takes the presented word off the host's list and accepts it. -/
theorem step_of_command {s : State} {w : Word} {rest : List HostEvent} (hwf : s.cfg.wellFormed = true) (hb : s.busy = false)
    (hhost : s.host = .command w :: rest) : step s = present w { s with host := rest } := by
  rw [step_of_wellFormed s hwf]
  simp [takeHostEvent, hhost, hb]

theorem present_of_decode {w : Word} {i : Instr} (hd : decode w = .command i) (s : State) : present w s = exec i s := by
  rw [present, hd]

theorem eq_command_of_toOption {d : Decoded} {i : Instr} (h : d.toOption = some i) : d = .command i := by
  cases d with
  | command j => exact congrArg Decoded.command (Option.some.inj h)
  | reserved r => cases h

theorem decode_of_decodeTableWord {w : Nat} {i : Instr} (h : decodeTableWord 32 w = some i) :
    decode (tableWord 32 w) = .command i :=
  eq_command_of_toOption ((if_pos le_rfl).symm.trans h)

/-- Settles O7: the word is accepted, and a word that decodes to a command means that command. -/
theorem stepRunsTheDecodedCommand : Obligations.StepRunsTheDecodedCommand := by
  intro s w i rest hwf hb hhost hd
  rw [step_of_command hwf hb hhost, present_of_decode hd]

/-- Settles O8: taking the placed word off the host's list gives the idle state back. -/
theorem placedWordRunsNext : Obligations.PlacedWordRunsNext := by
  intro s w i hwf hb hseq hd
  have hback : { s.withFetchWord 32 w with host := s.host } = s := by
    cases s
    cases hb
    cases hseq
    rfl
  have hrun := stepRunsTheDecodedCommand (s.withFetchWord 32 w) (tableWord 32 w) i s.host hwf rfl rfl (decode_of_decodeTableWord hd)
  rwa [hback] at hrun

/-- `exec` of a command waits while another runs (40_command_dispatch.md R100). -/
theorem exec_waits (i : Instr) {s : State} (hb : s.busy = true) : exec i s = .next s := by
  obtain ⟨program, writes, hexec⟩ := exec_eq_runCommand i
  rw [hexec, runCommand, if_pos hb]

@[simp] theorem finish_host (s : State) : (finish s).host = s.host := by
  unfold finish resultWrites
  split <;> rfl

@[simp] theorem finishRunning_host (s : State) : (finishRunning s).host = s.host := by
  rw [finishRunning, finish_host, run_host]

/-- Settles O12: the step ends the running command, which never touches the host's list. -/
theorem wordWaitsWhileBusy : Obligations.WordWaitsWhileBusy := by
  intro i s hb
  refine ⟨exec_waits i hb, fun w rest hwf hhost => ⟨finishRunning s, ?_, finishRunning_host s, rfl, rfl⟩⟩
  rw [step_of_wellFormed s hwf]
  simp [takeHostEvent, hhost, hb]

/-- A block in reset holds the values of the reset table (10_state.md R35). -/
theorem atReset_resetBlock (s : State) : AtReset (resetBlock s) where
  pinOe := rfl
  pinCsN := rfl
  pinSck := rfl
  pinSdo := rfl
  busy := rfl
  initDone := rfl
  angleErr := rfl
  errIllegal := rfl
  errNoinit := rfl
  result := rfl
  angle := rfl
  seq := rfl

theorem flags_of_atReset {s : State} (h : AtReset s) : s.flags = 0x0000#16 := by
  rw [State.flags, h.busy, h.initDone, h.angleErr, h.errIllegal, h.errNoinit]
  rfl

theorem step_of_reset {s : State} {rest : List HostEvent} (hwf : s.cfg.wellFormed = true) (hhost : s.host = .reset :: rest) :
    step s = .next (resetStep { s with host := rest }) := by
  rw [step_of_wellFormed s hwf, takeHostEvent, hhost]

/-- A Reset step keeps the parameters and what the host does next, whether it cuts a command or not. -/
theorem resetStep_cfg_host (s : State) : (resetStep s).cfg = s.cfg ∧ (resetStep s).host = s.host := by
  unfold resetStep
  split <;> exact ⟨rfl, rfl⟩

/-- Settles O38: the block is in reset, running a command before or not. -/
theorem resetStepWins : Obligations.ResetStepWins := by
  intro s rest hwf hhost
  obtain ⟨hcfg, hrest⟩ := resetStep_cfg_host { s with host := rest }
  have hreset : AtReset (resetStep { s with host := rest }) := atReset_resetBlock _
  exact ⟨_, step_of_reset hwf hhost, hreset, flags_of_atReset hreset, rfl, rfl, rfl, hcfg, hrest⟩

/-! The accepting edge -/

/-- An edge at which an idle block is presented a word is the accepting edge (R100). -/
theorem clockEdge_of_accepts {p : EdgeIn} {s : State} (hb : s.busy = false) (hrst : p.rst = false) (hv : p.cmdValid = true) :
    clockEdge p s = acceptingEdge p.cmdWord s := by
  simp [clockEdge, State.cmdReady, hb, hrst, hv]

theorem exists_reserved_of_not_legal {w : Word} (h : legal w = false) : ∃ r, decode w = .reserved r := by
  cases hd : decode w with
  | reserved r => exact ⟨r, rfl⟩
  | command i => simp [(legal_and_opcode_of_decode hd).1] at h

/-- A reserved word is rejected at both levels (R102). -/
theorem present_and_acceptingEdge_of_not_legal {w : Word} (h : legal w = false) (s t : State) :
    present w s = .next (rejectIllegal s) ∧ acceptingEdge w t = rejectIllegal t := by
  obtain ⟨r, hd⟩ := exists_reserved_of_not_legal h
  simp [present, acceptingEdge, hd]

theorem acceptingEdge_of_decode {w : Word} {i : Instr} (hd : decode w = .command i) (s : State) :
    acceptingEdge w s = if mayStart i s then start i s else rejectNoinit s := by
  rw [acceptingEdge, hd]

/-- The start of a command latches the fields of its word (R101). -/
theorem start_latches_of_decode {w : Word} {i : Instr} (hd : decode w = .command i) (s : State) :
    (start i s).cmdOp = opField w ∧ (start i s).cmdOpnd = addrField w := by
  rw [start_cmdOp, start_cmdOpnd, encode_of_decode hd]
  exact ⟨rfl, rfl⟩

theorem sameStickyFlags_start {i : Instr} (hi : i ≠ .init) (s : State) : SameStickyFlags s (start i s) :=
  ⟨start_initDone i hi s, start_errIllegal i hi s, start_errNoinit i hi s⟩

theorem samePins_start (i : Instr) (s : State) : SamePins s (start i s) :=
  ⟨start_pinOe i s, start_pinCsN i s, start_pinSck i s, start_pinSdo i s⟩

theorem sameResults_start (i : Instr) (s : State) : SameResults s (start i s) :=
  ⟨start_result i s, start_angle i s, start_angleErr i s⟩

/-- Settles O10: a word that is not legal is reserved; a legal one is a command, which is INIT exactly when its opcode says so. -/
theorem acceptanceChecksInOrder : Obligations.AcceptanceChecksInOrder := by
  intro s p rest hwf hb hrst hv hhost
  rw [step_of_command hwf hb hhost, clockEdge_of_accepts hb hrst hv]
  refine ⟨fun hlegal => present_and_acceptingEdge_of_not_legal hlegal _ _, fun hlegal hop hdone => ?noinit,
    fun hlegal hmay => ?starts⟩
  all_goals
    obtain ⟨i, hd⟩ := exists_decode_of_legal hlegal
    have hinit : p.cmdWord.extractLsb' 28 4 = 0x1#4 ↔ i = .init := by
      have hop : p.cmdWord.extractLsb' 28 4 = i.opcode := (legal_and_opcode_of_decode hd).2
      rw [hop, opcode_eq_init_iff]
    rw [present_of_decode hd, acceptingEdge_of_decode hd]
  case noinit =>
    have hi : i ≠ .init := mt hinit.mpr hop
    have hm : mayStart i s = false := Bool.eq_false_iff.mpr fun hm => by simp [mayStart_iff, hi, hdone] at hm
    exact ⟨exec_rejects i { s with host := rest } hb hm, if_neg (by simp [hm])⟩
  case starts =>
    have hm : mayStart i s = true := (mayStart_iff i s).mpr (hmay.imp_left hinit.mp)
    obtain ⟨hlatchOp, hlatchOpnd⟩ := start_latches_of_decode hd s
    rw [if_pos hm]
    refine ⟨⟨i, hd, rfl⟩, start_busy i s, hlatchOp, hlatchOpnd, fun hop => ?_, fun hop => ?_, samePins_start i s,
      sameResults_start i s, start_trace i s⟩
    · rw [hinit.mp hop]
      exact ⟨rfl, rfl, rfl⟩
    · exact sameStickyFlags_start (mt hinit.mpr hop) s

/-! The accepting edge and the completing edge drive no pin -/

theorem samePins_finish (s : State) : SamePins s (finish s) :=
  ⟨finish_level s .oe, finish_level s .csN, finish_level s .sck, finish_level s .sdo⟩

@[simp] theorem advance_busy (n : Nat) (s : State) : (advance n s).busy = s.busy :=
  advance_keeps (fun u => u.busy = s.busy) (fun u a _ hu _ _ => (perform_busy a u).trans hu) n s rfl

/-- Settles O45: only an edge of a command that runs on performs actions. -/
theorem acceptAndCompleteDriveNoPin : Obligations.AcceptAndCompleteDriveNoPin := by
  intro s p hrst hidle
  obtain ⟨h, _⟩ | ⟨_, _, _, hedge⟩ | ⟨_, hb, _, hedge⟩ | ⟨_, _, _, _, hedge⟩ | ⟨_, _, _, _, hedge⟩ | ⟨i, _, _, _, _, _, hedge⟩ |
    ⟨_, _, _, hedge⟩ := clockEdge_cases p s
  · simp [hrst] at h
  · exact hedge ▸ ⟨samePins_finish s, .inl (finish_trace s)⟩
  · simp [hedge, hb] at hidle
  all_goals rw [hedge]
  · exact ⟨⟨rfl, rfl, rfl, rfl⟩, .inr rfl⟩
  · exact ⟨⟨rfl, rfl, rfl, rfl⟩, .inr rfl⟩
  · exact ⟨samePins_start i s, .inr (start_trace i s)⟩
  · exact ⟨⟨rfl, rfl, rfl, rfl⟩, .inl rfl⟩

end Sys2Proof.Machine
end

section
/-! SUPPORT. The refinement: every edge of a running command leaves the end the command will have as it was
(40_command_dispatch.md R104 to R106). -/

namespace Sys2Proof.Machine

theorem remaining_update_dly (s : State) (d : Nat) : remaining { s with dly := d } = remaining s := by
  rw [remaining, programOf_congr s { s with dly := d } rfl rfl rfl, remaining]

/-- The edges counted for the next action do not matter to the command's end. -/
theorem finishRunning_update_dly {s : State} (hrem : remaining s ≠ []) (d : Nat) :
    finishRunning { s with dly := d } = finishRunning s := by
  obtain ⟨a, l, hcons⟩ := List.exists_cons_of_ne_nil hrem
  have hfirst : perform { s with dly := d } a = perform s a :=
    (perform_update_seq a s s.seq d).trans (perform_seq a s ▸ rfl)
  rw [finishRunning, remaining_update_dly, finishRunning, hcons, run_cons, run_cons, hfirst]

/-- The actions of an edge leave the command's end as it was. -/
theorem finishRunning_advance (n : Nat) (s : State) : finishRunning (advance n s) = finishRunning s :=
  advance_keeps (fun u => finishRunning u = finishRunning s)
    (fun _ _ _ hu hrem _ => (finishRunning_advanceOne hrem).trans hu) n s rfl

/-- An edge of a running command without reset is the completing edge, or performs actions. -/
theorem clockEdge_of_busy {p : EdgeIn} {s : State} (hb : s.busy = true) (hrst : p.rst = false) :
    (remaining s = [] ∧ clockEdge p s = finish s) ∨
      (remaining s ≠ [] ∧ clockEdge p s = advance p.quota { s with dly := s.dly + 1 }) := by
  cases hrem : remaining s <;> simp [clockEdge, hrst, hb, runningEdge, hrem]

/-- An edge of a running command without reset completes it, as the command level does, or leaves its end as it was. -/
theorem clockEdge_running_cases {p : EdgeIn} {s : State} (hb : s.busy = true) (hrst : p.rst = false) :
    clockEdge p s = finishRunning s ∨
      ((clockEdge p s).busy = true ∧ finishRunning (clockEdge p s) = finishRunning s) := by
  obtain ⟨hrem, hedge⟩ | ⟨hrem, hedge⟩ := clockEdge_of_busy hb hrst
  · rw [hedge, finishRunning, hrem]
    exact .inl rfl
  · rw [hedge]
    exact .inr ⟨(advance_busy _ _).trans hb, (finishRunning_advance _ _).trans (finishRunning_update_dly hrem _)⟩

/-- While a command runs on, its end stays as it was. -/
theorem finishRunning_clockRun (ps : List EdgeIn) {s : State} (hrst : ∀ p ∈ ps, p.rst = false)
    (hbusy : ∀ k ≤ ps.length, (clockRun (ps.take k) s).busy = true) : finishRunning (clockRun ps s) = finishRunning s := by
  induction ps generalizing s with
  | nil => rfl
  | cons p ps ih =>
    have hrest := ih (s := clockEdge p s) (fun q hq => hrst q (List.mem_cons_of_mem p hq))
      fun k hk => hbusy (k + 1) (Nat.succ_le_succ hk)
    have hb : s.busy = true := hbusy 0 (Nat.zero_le _)
    obtain hdone | ⟨_, hsame⟩ := clockEdge_running_cases hb (hrst p List.mem_cons_self)
    · have hstill : (clockEdge p s).busy = true := hbusy 1 (by simp)
      rw [hdone] at hstill
      cases hstill
    · exact hrest.trans hsame

/-- Settles O46: the command's end at its start is the one it completes with. -/
theorem clockRunRefinesExec : Obligations.ClockRunRefinesExec := by
  intro s i accept last ps hb hi hrst hv hd hps hlast hbusy hidle
  have hm : mayStart i s = true := (mayStart_iff i s).mpr hi
  have hstart : clockEdge accept s = start i s := by
    rw [clockEdge_of_accepts hb hrst hv, acceptingEdge_of_decode hd, if_pos hm]
  have hlastBusy : (clockRun ps (clockEdge accept s)).busy = true := by simpa using hbusy ps.length le_rfl
  have hsplit : clockRun (ps ++ [last]) (clockEdge accept s) = clockEdge last (clockRun ps (clockEdge accept s)) := by
    simp [clockRun, List.foldl_append]
  rw [hsplit] at hidle ⊢
  obtain hdone | ⟨hstill, _⟩ := clockEdge_running_cases hlastBusy hlast
  · rw [hdone, finishRunning_clockRun ps hps hbusy, hstart, exec_starts i s hb hm]
  · rw [hidle] at hstill
    cases hstill

end Sys2Proof.Machine
end

section
/-! SUPPORT. Liveness: each edge that performs an action, or counts towards a wait, brings the completing edge nearer
(40_command_dispatch.md R107). -/

namespace Sys2Proof.Machine

/-- The cycles an action lasts at least: a wait's length, and none for the others (00_scope.md R12). -/
def Micro.dwell (c : Config) : Micro → Nat
  | .wait d => c.cycles d
  | _ => 0

/-- An edge for each action, and those its wait takes. -/
def edgesOf (c : Config) (l : List Micro) : Nat := (l.map fun a => a.dwell c + 1).sum

theorem edgesOf_append (c : Config) (l₁ l₂ : List Micro) : edgesOf c (l₁ ++ l₂) = edgesOf c l₁ + edgesOf c l₂ := by
  simp [edgesOf]

theorem edgesOf_cons (c : Config) (a : Micro) (l : List Micro) : edgesOf c (a :: l) = a.dwell c + 1 + edgesOf c l := by
  simp [edgesOf]

theorem edgesOf_nil (c : Config) : edgesOf c [] = 0 := rfl

theorem edgesOf_txByte (c : Config) (b : Byte) : edgesOf c (txByte b) = 41 + 8 * (c.tLo + c.tHi) := by
  simp only [txByte, txBit, edgesOf_append, edgesOf_cons, edgesOf_nil, Micro.dwell, Config.cycles]
  omega

theorem edgesOf_rxByte (c : Config) : edgesOf c rxByte = 41 + 8 * (c.tLo + c.tHi) := by
  simp only [rxByte, rxBit, edgesOf_append, edgesOf_cons, edgesOf_nil, Micro.dwell, Config.cycles]
  omega

theorem edgesOf_transact (c : Config) (a : Half) :
    edgesOf c (transact a) = 169 + c.tCss + c.tTurn + 32 * (c.tLo + c.tHi) := by
  simp only [transact, send, receive, edgesOf_append, edgesOf_cons, edgesOf_nil, edgesOf_txByte, edgesOf_rxByte, Micro.dwell,
    Config.cycles]
  omega

/-- A transaction is the longest program but for INIT's wait. -/
theorem edgesOf_programOf_le (c : Config) (s : State) :
    edgesOf c (programOf s) ≤ 169 + c.tInit + c.tCss + c.tTurn + 32 * (c.tLo + c.tHi) := by
  obtain ⟨_, hp⟩ | ⟨_, ⟨b, hp⟩ | hp | ⟨a, hp⟩ | hp⟩ := programOf_cases s <;> rw [hp]
  · simp only [initProgram, edgesOf_cons, edgesOf_nil, Micro.dwell, Config.cycles]
    omega
  · simp only [send, edgesOf_append, edgesOf_nil, edgesOf_txByte]
    omega
  · simp only [receive, edgesOf_rxByte]
    omega
  · rw [edgesOf_transact]
    omega
  · exact Nat.zero_le _

/-- An action may happen once its dwell has lasted. -/
theorem ready_iff_dwell_le (a : Micro) (s : State) : a.ready s = true ↔ a.dwell s.cfg ≤ s.dly := by
  cases a <;> simp [Micro.ready, Micro.dwell]

/-- The edges a running command still takes at most, the completing one among them: what is left of the wait under way, and all of what
follows it. -/
def edgesLeft (s : State) : Nat :=
  match remaining s with
  | [] => 1
  | a :: l => a.dwell s.cfg - s.dly + edgesOf s.cfg l + 2

theorem edgesLeft_of_cons {s : State} {a : Micro} {l : List Micro} (hrem : remaining s = a :: l) :
    edgesLeft s = a.dwell s.cfg - s.dly + edgesOf s.cfg l + 2 := by
  rw [edgesLeft, hrem]

theorem edgesLeft_le (s : State) : edgesLeft s ≤ edgesOf s.cfg (remaining s) + 1 := by
  cases hrem : remaining s with
  | nil => simp [edgesLeft, hrem]
  | cons a l =>
    rw [edgesLeft_of_cons hrem, edgesOf_cons]
    omega

theorem edgesLeft_pos (s : State) : 1 ≤ edgesLeft s := by
  unfold edgesLeft
  split <;> omega

/-- Performing an action leaves at least one edge less. -/
theorem edgesLeft_advanceOne_lt {s : State} {a : Micro} {l : List Micro} (hrem : remaining s = a :: l) :
    edgesLeft (advanceOne a s) < edgesLeft s := by
  have hcfg : (advanceOne a s).cfg = s.cfg := perform_cfg a s
  have hle := edgesLeft_le (advanceOne a s)
  rw [remaining_advanceOne hrem, hcfg] at hle
  rw [edgesLeft_of_cons hrem]
  omega

theorem edgesLeft_advance_le (n : Nat) (s : State) : edgesLeft (advance n s) ≤ edgesLeft s :=
  advance_keeps (fun u => edgesLeft u ≤ edgesLeft s)
    (fun _ _ _ hu hrem _ => (edgesLeft_advanceOne_lt hrem).le.trans hu) n s le_rfl

/-- An edge that counts and may perform an action leaves at least one edge less: the action happens, or its wait is one edge shorter. -/
theorem edgesLeft_advance_lt {s : State} (hrem : remaining s ≠ []) {quota : Nat} (hquota : 1 ≤ quota) :
    edgesLeft (advance quota { s with dly := s.dly + 1 }) < edgesLeft s := by
  obtain ⟨a, l, hcons⟩ := List.exists_cons_of_ne_nil hrem
  obtain ⟨n, rfl⟩ := Nat.exists_eq_add_of_le' hquota
  have hcounted : remaining { s with dly := s.dly + 1 } = a :: l := (remaining_update_dly s _).trans hcons
  have hbefore := edgesLeft_of_cons hcons
  have hafter := edgesLeft_of_cons hcounted
  rw [advance, hcounted]
  dsimp only at hafter ⊢
  split
  case isTrue =>
    have hact := edgesLeft_advanceOne_lt hcounted
    have hmore := edgesLeft_advance_le n (advanceOne a { s with dly := s.dly + 1 })
    omega
  case isFalse hwait =>
    rw [ready_iff_dwell_le] at hwait
    dsimp only at hwait
    omega

/-- An edge of a running command completes it or leaves at least one edge less. -/
theorem clockEdge_completes_or_nearer {p : EdgeIn} {s : State} (hb : s.busy = true) (hrst : p.rst = false) (hquota : 1 ≤ p.quota) :
    (clockEdge p s).busy = false ∨ ((clockEdge p s).busy = true ∧ edgesLeft (clockEdge p s) < edgesLeft s) := by
  obtain ⟨_, hedge⟩ | ⟨hrem, hedge⟩ := clockEdge_of_busy hb hrst
  · exact hedge ▸ .inl rfl
  · exact hedge ▸ .inr ⟨(advance_busy _ _).trans hb, edgesLeft_advance_lt hrem hquota⟩

/-- A running command completes within the edges it has left. -/
theorem exists_complete_of_edgesLeft_le (ps : List EdgeIn) {s : State} (hb : s.busy = true)
    (hps : ∀ p ∈ ps, p.rst = false ∧ 1 ≤ p.quota) (hlen : edgesLeft s ≤ ps.length) :
    ∃ k ≤ ps.length, (clockRun (ps.take k) s).busy = false := by
  induction ps generalizing s with
  | nil => exact absurd ((edgesLeft_pos s).trans hlen) (by decide)
  | cons p ps ih =>
    obtain ⟨hrst, hquota⟩ := hps p List.mem_cons_self
    obtain hdone | ⟨hstill, hless⟩ := clockEdge_completes_or_nearer hb hrst hquota
    · exact ⟨1, by simp, hdone⟩
    · obtain ⟨k, hk, hdone⟩ := ih hstill (fun q hq => hps q (List.mem_cons_of_mem p hq))
        (Nat.le_of_lt_succ (hless.trans_le hlen))
      exact ⟨k + 1, Nat.succ_le_succ hk, hdone⟩

/-- Settles O47: at its start a command has at most its program's edges and the completing one left. -/
theorem acceptedCommandsComplete : Obligations.AcceptedCommandsComplete := by
  intro s accept ps hacc hb hb' hps hlen
  obtain ⟨i, hstart⟩ := clockEdge_of_accepted accept s hb hb' hacc
  refine exists_complete_of_edgesLeft_le ps hb' hps ?_
  have hprog : remaining (start i s) = programOf (start i s) := by
    rw [remaining, start_seq]
    rfl
  have hleft := edgesLeft_le (start i s)
  have hbound := edgesOf_programOf_le s.cfg (start i s)
  rw [hprog, start_cfg] at hleft
  rw [hstart]
  omega

end Sys2Proof.Machine
end

section
/-! SUPPORT. The Bit Transport on the wire: what an observer reads off the trace of a byte, bit 7 first, and the two commands that
send and receive one (41_bit_transport.md R121 to R127). -/

namespace Sys2Proof.Machine

open Sys2Proof.Safety

/-! What the trace of a byte shows -/

theorem length_txTrace (b : Byte) : (txTrace b).length = 40 := rfl

theorem length_rxTrace (draw : Nat → Level) (k : Nat) : (rxTrace draw k).length = 40 := rfl

theorem samples_rxBits (bit : Nat → Level) (l : List Nat) : samples (l.flatMap fun i => rxBitTrace (bit i)) = l.map bit := by
  induction l with
  | nil => rfl
  | cons i l ih =>
    rw [List.flatMap_cons, List.map_cons, ← ih]
    rfl

theorem atRises_sdo_txBits (bit : Nat → Level) (l : List Nat) (before : Level) :
    atRises .sdo before (l.flatMap fun i => txBitTrace (bit i)) = l.map bit := by
  induction l generalizing before with
  | nil => rfl
  | cons i l ih =>
    rw [List.flatMap_cons, List.map_cons, ← ih (bit i)]
    rfl

/-- The eight samples of `RxByte` are its eight draws, in order (R125). -/
theorem samples_rxTrace (draw : Nat → Level) (k : Nat) :
    samples (rxTrace draw k) = (List.range 8).map fun j => draw (k + j) :=
  samples_rxBits (fun i => draw (k + (7 - i))) _

/-- At the eight rising edges of `TxByte` `sdo` carries bit 7 down to bit 0, whatever its level before (R121). -/
theorem atRises_sdo_txTrace (b : Byte) (before : Level) :
    atRises .sdo before (txTrace b) = (List.range 8).map fun j => b.getLsbD (7 - j) :=
  atRises_sdo_txBits b.getLsbD _ before

/-! SEND_BYTE and RECV_BYTE run one byte transfer -/

/-- The word of SEND_BYTE is its match with the byte in the low bits (30_encoding.md R72, R73). -/
theorem encode_sendByte (b : Byte) : encode (.sendByte b) = 0x20000000#32 ||| b.setWidth 32 := by
  rw [BitVec.setWidth_eq_append (by decide)]
  exact encode_eq_match_or_operand (.sendByte b)

/-- The byte SEND_BYTE shifts out is the low half of what it latched (30_encoding.md R73; 40_command_dispatch.md R101). -/
theorem byteOperand_start_sendByte (b : Byte) (s : State) : byteOperand (start (.sendByte b) s) = b := by
  rw [byteOperand, start_cmdOpnd, addrField, BitVec.extractLsb'_extractLsb'_of_le (by decide)]
  exact byteField_encode_sendByte b

/-- SEND_BYTE is one `TxByte` of its operand from its start, then its completing edge (R122). -/
theorem exec_sendByte {s : State} (hs : Ready s) (b : Byte) :
    exec (.sendByte b) s = .next (complete (run (txByte b) (start (.sendByte b) s))) := by
  rw [exec_runs _ s hs.busy ((mayStart_iff _ s).mpr (.inr hs.initDone)), programOf_start_sendByte,
    byteOperand_start_sendByte]
  simp [finish, resultWrites, sendByteWrites, send, opField_encode, Instr.opcode]

/-- RECV_BYTE is one `RxByte` from its start, then its completing edge with the byte received (R126). -/
theorem exec_recvByte {s : State} (hs : Ready s) :
    exec .recvByte s = .next (complete (recvByteWrites (run rxByte (start .recvByte s)))) := by
  rw [exec_runs _ s hs.busy ((mayStart_iff _ s).mpr (.inr hs.initDone)), programOf_start_recvByte]
  simp [finish, resultWrites, receive, opField_encode, Instr.opcode]

/-- Zero extension keeps the byte's bits and adds none (00_scope.md R10). -/
theorem getLsbD_zextByte (v : Byte) (j : Nat) : (zextByte v).getLsbD j = v.getLsbD j := by
  rw [zextByte, ← BitVec.setWidth'_eq (by decide), BitVec.getLsbD_setWidth']

/-- Settles O18: the closed form of `TxByte` from SEND_BYTE's start is read off field by field. -/
theorem sendByteShiftsOutMsbFirst : Obligations.SendByteShiftsOutMsbFirst := by
  intro b s hs
  rw [exec_sendByte hs, run_txByte, ← encode_sendByte]
  exact ⟨_, rfl, rfl, length_txTrace b, rfl, rfl, rfl, rfl, ⟨rfl, rfl, rfl⟩, ⟨rfl, rfl, rfl⟩, ⟨rfl, rfl, rfl, rfl⟩,
    ⟨rfl, rfl, rfl, rfl⟩⟩

/-- Settles O19: the closed form of `RxByte` from RECV_BYTE's start; `RESULT` is the byte its draws spell. -/
theorem recvByteShiftsInMsbFirst : Obligations.RecvByteShiftsInMsbFirst := by
  intro s hs
  rw [exec_recvByte hs, run_rxByte, start_draw]
  refine ⟨_, rfl, rfl, length_rxTrace s.draw 0, ?samples, fun k hk => ?draws, fun j hj => ?zeros, rfl, rfl, rfl, rfl, rfl, rfl,
    ⟨rfl, rfl, rfl⟩, ⟨rfl, rfl, rfl, rfl⟩, ⟨rfl, rfl, rfl, rfl⟩⟩
  case samples => exact (samples_rxTrace s.draw 0).trans (by simp)
  case draws => exact (getLsbD_zextByte _ _).trans (by simpa using drawnByte_bit s.draw 0 k hk)
  case zeros => exact (getLsbD_zextByte _ j).trans (BitVec.getLsbD_of_ge _ j hj)

/-- Settles O28: the draws are bits 7 down to 0 of the byte, and they are bits 7 down to 0 of `RESULT`. -/
theorem loopbackReturnsTheByte : Obligations.LoopbackReturnsTheByte := by
  intro b s t hs hsend hloop
  obtain ⟨t', hsend', htrace, -, -, -, -, -, -, hflags, -, hdone⟩ := sendByteShiftsOutMsbFirst b s hs
  obtain rfl : t = t' := Host.Outcome.next.inj (hsend.symm.trans hsend')
  obtain ⟨u, hrecv, -, -, -, hdraws, hzeros, -⟩ := recvByteShiftsInMsbFirst t ⟨hdone.busy, hflags.initDone.trans hs.initDone⟩
  rw [htrace, atRises_sdo_txTrace, List.map_inj_left] at hloop
  refine ⟨u, hrecv, BitVec.eq_of_getLsbD_eq fun j _ => ?_⟩
  show u.result.getLsbD j = (zextByte b).getLsbD j
  rw [getLsbD_zextByte]
  obtain hj | hj := Nat.lt_or_ge j 8
  · have hk : 7 - j < 8 := by omega
    have hbit := (hdraws (7 - j) hk).trans (hloop (7 - j) (List.mem_range.mpr hk))
    rwa [Nat.sub_sub_self (Nat.le_of_lt_succ hj)] at hbit
  · rw [hzeros j hj, BitVec.getLsbD_of_ge _ j hj]

end Sys2Proof.Machine
end

section
/-! SUPPORT. What an observer reads off two traces in a row, and off the trace of a transaction (42_register_channel.md R141, R143,
R144). -/

namespace Sys2Proof.Machine

open Sys2Proof.Safety

/-! Two traces in a row -/

theorem samples_append (tr₁ tr₂ : List PinEvent) : samples (tr₁ ++ tr₂) = samples tr₁ ++ samples tr₂ :=
  List.filterMap_append

theorem setsOf_append (pin : Pin) (b : Level) (tr₁ tr₂ : List PinEvent) :
    setsOf pin b (tr₁ ++ tr₂) = setsOf pin b tr₁ + setsOf pin b tr₂ :=
  List.count_append

/-- The second trace begins with the pin where the first leaves it. -/
theorem atRises_append (pin : Pin) (before : Level) (tr₁ tr₂ : List PinEvent) :
    atRises pin before (tr₁ ++ tr₂) = atRises pin before tr₁ ++ atRises pin (levelAfter pin before tr₁) tr₂ := by
  induction tr₁ generalizing before with
  | nil => rfl
  | cons e tr₁ ih =>
    cases e with
    | set p b => by_cases hrise : p = .sck ∧ b = true <;> simp [atRises, levelAfter, hrise, ih]
    | group sets => exact ih _
    | wait d => exact ih _
    | sample b => exact ih _

/-- Two ranges in a row are one: eight bits of the high byte, then eight of the low one. -/
theorem map_range_append_map_range {α : Type} (f : Nat → α) (m n : Nat) :
    (List.range m).map f ++ (List.range n).map (fun k => f (m + k)) = (List.range (m + n)).map f := by
  rw [List.range_add, List.map_append, List.map_map]
  rfl

/-! The trace of a byte: eight pulses, and `cs_n` left alone (R121, R125) -/

theorem setsOf_sck_txTrace (b : Byte) : setsOf .sck true (txTrace b) = 8 := rfl

theorem setsOf_sck_rxTrace (draw : Nat → Level) (k : Nat) : setsOf .sck true (rxTrace draw k) = 8 := rfl

theorem setsOf_csN_txTrace (level : Level) (b : Byte) : setsOf .csN level (txTrace b) = 0 := rfl

theorem setsOf_csN_rxTrace (level : Level) (draw : Nat → Level) (k : Nat) : setsOf .csN level (rxTrace draw k) = 0 := rfl

theorem levelAfter_csN_txTrace (before : Level) (b : Byte) : levelAfter .csN before (txTrace b) = before := rfl

theorem levelAfter_csN_rxTrace (before : Level) (draw : Nat → Level) (k : Nat) :
    levelAfter .csN before (rxTrace draw k) = before := rfl

theorem atRises_csN_txTrace (before : Level) (b : Byte) : atRises .csN before (txTrace b) = List.replicate 8 before := rfl

theorem atRises_csN_rxTrace (before : Level) (draw : Nat → Level) (k : Nat) :
    atRises .csN before (rxTrace draw k) = List.replicate 8 before := rfl

theorem samples_txTrace (b : Byte) : samples (txTrace b) = [] := rfl

/-! The trace of a transaction: the selection, two bytes out, then the reply (R141) -/

/-- What comes before the first byte: `cs_n` falls, and the setup wait. -/
def selectTrace : List PinEvent := [.set .csN false, .wait .tCss]

/-- What comes after the two bytes sent: the turnaround wait, two bytes in, and `cs_n` rises. -/
def replyTrace (draw : Nat → Level) : List PinEvent :=
  [.wait .tTurn] ++ rxTrace draw 0 ++ rxTrace draw 8 ++ [.set .csN true]

theorem transactTrace_eq (a : Half) (draw : Nat → Level) :
    transactTrace a draw = selectTrace ++ txTrace (highByte a) ++ txTrace (lowByte a) ++ replyTrace draw := by
  simp only [transactTrace, selectTrace, replyTrace, highByte, lowByte, List.append_assoc]

theorem length_transactTrace (a : Half) (draw : Nat → Level) : (transactTrace a draw).length = 164 := by
  simp [transactTrace, length_txTrace, length_rxTrace]

/-- The sixteen samples of the reply are the sixteen draws, in order (R143). -/
theorem samples_replyTrace (draw : Nat → Level) : samples (replyTrace draw) = (List.range 16).map draw := by
  simp only [replyTrace, samples_append, samples_rxTrace, Nat.zero_add, ← map_range_append_map_range draw 8 8]
  simp [samples]

/-- All samples of a transaction are in its reply. -/
theorem samples_transactTrace (a : Half) (draw : Nat → Level) : samples (transactTrace a draw) = (List.range 16).map draw := by
  simp only [transactTrace_eq, samples_append, samples_txTrace, samples_replyTrace]
  rfl

theorem setsOf_sck_replyTrace (draw : Nat → Level) : setsOf .sck true (replyTrace draw) = 16 := by
  simp only [replyTrace, setsOf_append, setsOf_sck_rxTrace]
  rfl

theorem setsOf_sck_transactTrace (a : Half) (draw : Nat → Level) : setsOf .sck true (transactTrace a draw) = 32 := by
  simp only [transactTrace_eq, setsOf_append, setsOf_sck_txTrace, setsOf_sck_replyTrace]
  rfl

/-- `cs_n` is set once to each level: by the selection to 0 and at the end of the reply to 1 (R144). -/
theorem setsOf_csN_transactTrace (level : Level) (a : Half) (draw : Nat → Level) :
    setsOf .csN level (transactTrace a draw) = 1 := by
  simp only [transactTrace_eq, selectTrace, replyTrace, setsOf_append, setsOf_csN_txTrace, setsOf_csN_rxTrace]
  cases level <;> rfl

/-- `cs_n` is 0 from the selection to the last event, so at every pulse (R144). -/
theorem atRises_csN_transactTrace (before : Level) (a : Half) (draw : Nat → Level) :
    atRises .csN before (transactTrace a draw) = List.replicate 32 false := by
  have hselect : levelAfter .csN before selectTrace = false := rfl
  simp only [transactTrace_eq, replyTrace, atRises_append, levelAfter_append, hselect, levelAfter_csN_txTrace,
    levelAfter_csN_rxTrace, atRises_csN_txTrace, atRises_csN_rxTrace]
  rfl

/-- The bits of the high byte, sent first, are `a[15]` down to `a[8]` (20_memory.md R52). -/
theorem getLsbD_highByte (a : Half) {k : Nat} (hk : k < 8) : (highByte a).getLsbD (7 - k) = a.getLsbD (15 - k) := by
  rw [highByte, BitVec.getLsbD_extractLsb', show 8 + (7 - k) = 15 - k by omega]
  simp [show 7 - k < 8 by omega]

/-- The bits of the low byte, sent second, are `a[7]` down to `a[0]` (20_memory.md R52). -/
theorem getLsbD_lowByte (a : Half) (k : Nat) : (lowByte a).getLsbD (7 - k) = a.getLsbD (15 - (8 + k)) := by
  rw [lowByte, BitVec.getLsbD_extractLsb', show 0 + (7 - k) = 15 - (8 + k) by omega]
  simp [show 7 - k < 8 by omega]

/-- At the first sixteen pulses `sdo` carries `a[15]` down to `a[0]` (R143). -/
theorem take_atRises_sdo_transactTrace (before : Level) (a : Half) (draw : Nat → Level) :
    (atRises .sdo before (transactTrace a draw)).take 16 = (List.range 16).map fun k => a.getLsbD (15 - k) := by
  have hselect : atRises .sdo before selectTrace = [] := rfl
  have hhigh : ((List.range 8).map fun k => (highByte a).getLsbD (7 - k)) = (List.range 8).map fun k => a.getLsbD (15 - k) :=
    List.map_congr_left fun k hk => getLsbD_highByte a (List.mem_range.mp hk)
  have hlow : ((List.range 8).map fun k => (lowByte a).getLsbD (7 - k)) =
      (List.range 8).map fun k => a.getLsbD (15 - (8 + k)) :=
    List.map_congr_left fun k _ => getLsbD_lowByte a k
  simp only [transactTrace_eq, atRises_append, hselect, atRises_sdo_txTrace, hhigh, hlow, List.nil_append]
  rw [map_range_append_map_range (fun k => a.getLsbD (15 - k)) 8 8]
  exact List.take_left' (by simp)

/-! The word received is its two bytes (R143) -/

/-- A byte is determined by the eight draws it spells. -/
theorem eq_drawnByte {draw : Nat → Level} {j : Nat} {b : Byte} (h : ∀ k < 8, b.getLsbD (7 - k) = draw (j + k)) :
    b = drawnByte draw j := by
  refine BitVec.eq_of_getLsbD_eq fun i hi => ?_
  have hk : 7 - i < 8 := by omega
  have hbits := (h (7 - i) hk).trans (drawnByte_bit draw j (7 - i) hk).symm
  rwa [Nat.sub_sub_self (Nat.le_of_lt_succ hi)] at hbits

/-- `h ++ l` is `(h << 8) | l` (R141). -/
theorem joinBytes_eq_or (h l : Byte) : joinBytes h l = (h.setWidth 16 <<< 8) ||| l.setWidth 16 := by
  rw [joinBytes, ← BitVec.setWidth_append_eq_shiftLeft_setWidth_or, BitVec.setWidth_eq]

end Sys2Proof.Machine
end

section
/-! SUPPORT. What a completed read leaves of the block beside its results, for each of the four reads (42_register_channel.md R141;
40_command_dispatch.md R101, R103, R104), and the statements about the Register Channel. -/

namespace Sys2Proof.Machine

open Sys2Proof.Safety

/-! What a completing edge does not write (40_command_dispatch.md R104) -/

@[simp] theorem finish_cmdOp (s : State) : (finish s).cmdOp = s.cmdOp := by
  unfold finish resultWrites
  split <;> rfl

@[simp] theorem finish_cmdOpnd (s : State) : (finish s).cmdOpnd = s.cmdOpnd := by
  unfold finish resultWrites
  split <;> rfl

/-- Completion consumes no draw. -/
theorem consumed_finish {n : Nat} {s t : State} (h : Consumed n s t) : Consumed n s (finish t) := by
  unfold finish resultWrites
  split <;> exact ⟨h.cfg, h.host, h.sdi, h.sampleNo⟩

/-- A transaction from the start of a command consumes sixteen draws. -/
theorem consumed_transact (i : Instr) (a : Half) (s : State) : Consumed 16 s (run (transact a) (start i s)) := by
  rw [run_transact]
  exact ⟨start_cfg i s, start_host i s, by simp, by simp⟩

/-- The block after a completed read of an address, its results and its trace apart. -/
structure ReadFrame (i : Instr) (a : Half) (s t : State) : Prop where
  csHigh : t.pinCsN = true
  sckLow : t.pinSck = false
  sdo : t.pinSdo = a.getLsbD 0
  oe : t.pinOe = s.pinOe
  angle : i ≠ .readAngle → t.angle = s.angle ∧ t.angleErr = s.angleErr
  flags : SameStickyFlags s t
  consumed : Consumed 16 s t
  completed : CompletedWith (encode i) t

/-- Every read that may run leaves this frame. -/
theorem readFrame_of_exec {i : Instr} {a : Half} {s t : State} (hs : Ready s) (ha : readAddress s.cfg i = some a)
    (hexec : exec i s = .next t) : ReadFrame i a s t := by
  obtain rfl : finish (run (transact a) (start i s)) = t := Host.Outcome.next.inj ((exec_read hs ha).symm.trans hexec)
  have hinit : i ≠ .init := by rintro rfl; cases ha
  have hop : (run (transact a) (start i s)).cmdOp = i.opcode := by
    rw [run_transact, start_cmdOp_eq_opcode]
  exact
    { csHigh := (finish_level _ .csN).trans (by rw [run_transact]; rfl)
      sckLow := (finish_level _ .sck).trans (by rw [run_transact]; rfl)
      sdo := (finish_level _ .sdo).trans (by rw [run_transact]; rfl)
      oe := (finish_level _ .oe).trans (by rw [run_transact]; exact start_pinOe i s)
      angle := fun hi => by
        obtain ⟨hangle, herr⟩ | ⟨hread, -⟩ := finish_angle_cases (run (transact a) (start i s))
        · exact ⟨by simp [hangle], by simp [herr]⟩
        · exact absurd ((opcode_eq_readAngle_iff i).mp (hop.symm.trans hread)) hi
      flags :=
        { initDone := by
            rw [finish_initDone_of_ne_init fun h => hinit ((opcode_eq_init_iff i).mp (hop.symm.trans h)), run_initDone,
              start_initDone i hinit]
          errIllegal := by simp [start_errIllegal i hinit]
          errNoinit := by simp [start_errNoinit i hinit] }
      consumed := consumed_finish (consumed_transact i a s)
      completed := ⟨rfl, rfl, by simp [opField], by simp [addrField]⟩ }

/-- The word of READ_REG is its match with the address in the low bits (30_encoding.md R72, R73). -/
theorem encode_readReg (a : Half) : encode (.readReg a) = 0x40000000#32 ||| a.setWidth 32 := by
  rw [BitVec.setWidth_eq_append (by decide)]
  exact encode_eq_match_or_operand (.readReg a)

/-- Settles O20: READ_REG is a read, which shows its draws and leaves the frame of a read. -/
theorem readRegRunsOneTransaction : Obligations.ReadRegRunsOneTransaction := by
  intro a s hs
  obtain ⟨t, hexec, hshows⟩ := exec_shows_read (i := .readReg a) hs rfl
  have hframe := readFrame_of_exec hs rfl hexec
  have hangle := hframe.angle (by simp)
  refine ⟨t, hexec, hshows.trace, ?length, ?samples, ?value, hframe.csHigh, hframe.sckLow, hframe.sdo, hframe.oe, hangle.1,
    hangle.2, hframe.flags, hframe.consumed, encode_readReg a ▸ hframe.completed⟩
  case length => rw [hshows.trace, length_transactTrace]
  case samples => rw [hshows.trace, samples_transactTrace, List.length_map, List.length_range]
  case value => exact hshows.result ▸ drawnWord_spells s.draw

/-- Settles O26: the trace is cut where the bytes out begin and end; its value is the word, and the two bytes, the draws spell. -/
theorem transactionFramesEveryAddress : Obligations.TransactionFramesEveryAddress := by
  intro a s hs
  obtain ⟨t, hexec, hshows⟩ := exec_shows_read (i := .readReg a) hs rfl
  have hresult : t.result = drawnWord s.draw := hshows.result
  refine ⟨t, hexec, ⟨selectTrace, replyTrace s.draw, ?cut, samples_replyTrace s.draw, setsOf_sck_replyTrace s.draw, rfl⟩, ?bits,
    hresult ▸ drawnWord_spells s.draw, fun b0 b1 hb0 hb1 => ?bytes⟩
  case cut => exact hshows.trace.trans (transactTrace_eq a s.draw)
  case bits => rw [hshows.trace, take_atRises_sdo_transactTrace]
  case bytes =>
    have hhigh : b0 = drawnByte s.draw 0 := eq_drawnByte (by simpa using hb0)
    rw [hresult, drawnWord, ← hhigh, ← eq_drawnByte hb1, joinBytes_eq_or]

/-- Settles O27: each of the four commands is a read, and every read drives the trace of a transaction. -/
theorem chipSelectBracketsEveryTransaction : Obligations.ChipSelectBracketsEveryTransaction := by
  intro i s hi hs
  obtain ⟨a, ha⟩ := exists_readAddress hi s.cfg
  obtain ⟨t, hexec, hshows⟩ := exec_shows_read hs ha
  refine ⟨t, hexec, ?_⟩
  rw [hshows.trace]
  exact ⟨setsOf_csN_transactTrace false a s.draw, setsOf_csN_transactTrace true a s.draw, rfl, List.getLast?_concat,
    setsOf_sck_transactTrace a s.draw, atRises_csN_transactTrace s.pinCsN a s.draw⟩

end Sys2Proof.Machine
end

section
/-! SUPPORT. The angle and the speed as numbers: the binary32 word of an angle by its three fields, its exact value, and the
sign-extended code (43_value_decoder.md R163 to R166). -/

namespace Sys2Proof.Machine

open Sys2Proof.Safety

/-! The value of a binary32 word -/

/-- A word with a non-zero exponent field is normal: its significand is 24 bits, its exponent is biased by 127. -/
theorem binary32Value_of_normal {w : Word} (he : w.extractLsb' 23 8 ≠ 0) :
    binary32Value w = (if w.getLsbD 31 then -1 else 1) *
      ((2 ^ 23 + ((w.extractLsb' 0 23).toNat : ℚ)) * 2 ^ (((w.extractLsb' 23 8).toNat : ℤ) - 150)) := by
  have hexp : w.extractLsb' 23 8 = (w.extractLsb' 0 31).extractLsb' 23 8 := by
    ext i hi
    simp
  have hne : w.extractLsb' 0 31 ≠ 0 := fun hzero => he (by rw [hexp, hzero]; rfl)
  unfold binary32Value
  rw [if_neg hne]
  split <;> ring

theorem binary32Value_zero : binary32Value 0x00000000#32 = 0 := by simp [binary32Value]

theorem binary32Value_angleErrorValue : binary32Value angleErrorValue = -1 := by
  rw [binary32Value_of_normal (by decide), if_pos (by decide), show angleErrorValue.extractLsb' 23 8 = 127#8 by decide,
    show angleErrorValue.extractLsb' 0 23 = 0#23 by decide]
  norm_num

/-! `F32Angle` -/

theorem f32Angle_of_eq_zero {code : BitVec 15} (h : code.toNat = 0) : f32Angle code = 0x00000000#32 := by
  simp [f32Angle, h]

/-- `2 ^ k ≤ n < 2 ^ (k + 1)` for `n = code * 360`, whose least and greatest non-zero values fix the range of `k` (R163). -/
theorem log2_code_bounds {code : BitVec 15} (h : code.toNat ≠ 0) :
    8 ≤ (code.toNat * 360).log2 ∧ (code.toNat * 360).log2 ≤ 23 := by
  have hlt := code.isLt
  exact ⟨(Nat.le_log2 (by omega)).mpr (by omega), Nat.le_of_lt_succ ((Nat.log2_lt (by omega)).mpr (by omega))⟩

/-- A number shifted to 24 bits has its leading bit at 23. -/
theorem normalized_bounds {n : Nat} (hn : n ≠ 0) (hk : n.log2 ≤ 23) :
    2 ^ 23 ≤ n * 2 ^ (23 - n.log2) ∧ n * 2 ^ (23 - n.log2) < 2 ^ 24 := by
  have hpow (j : Nat) : 2 ^ (n.log2 + j) * 2 ^ (23 - n.log2) = 2 ^ (23 + j) := by rw [← Nat.pow_add]; congr 1; omega
  exact ⟨(hpow 0).symm.trans_le (Nat.mul_le_mul_right _ (Nat.log2_self_le hn)),
    (Nat.mul_lt_mul_of_pos_right Nat.lt_log2_self (Nat.two_pow_pos _)).trans_eq (hpow 1)⟩

/-- Three fields side by side are one number. -/
theorem zero_append_ofNat_append_ofNat {e f : Nat} (he : e < 2 ^ 8) (hf : f < 2 ^ 23) :
    0#1 ++ BitVec.ofNat 8 e ++ BitVec.ofNat 23 f = BitVec.ofNat 32 (e * 2 ^ 23 + f) := by
  apply BitVec.eq_of_toNat_eq
  simp only [BitVec.toNat_append, BitVec.toNat_ofNat, Nat.mod_eq_of_lt he, Nat.mod_eq_of_lt hf]
  rw [← Nat.shiftLeft_add_eq_or_of_lt hf]
  simp [Nat.shiftLeft_eq]
  omega

/-- The fields of a non-zero angle's word (R163). -/
theorem f32Angle_eq_fields {code : BitVec 15} (h : code.toNat ≠ 0) :
    f32Angle code = 0#1 ++ BitVec.ofNat 8 ((code.toNat * 360).log2 + 127 - 15) ++
      BitVec.ofNat 23 (code.toNat * 360 * 2 ^ (23 - (code.toNat * 360).log2) - 2 ^ 23) := by
  have hk := (log2_code_bounds h).2
  have hnorm := normalized_bounds (n := code.toNat * 360) (by omega) hk
  rw [zero_append_ofNat_append_ofNat (by omega) (by omega), f32Angle, if_neg (by omega)]
  rfl

theorem exponent_f32Angle {code : BitVec 15} (h : code.toNat ≠ 0) :
    ((f32Angle code).extractLsb' 23 8).toNat = (code.toNat * 360).log2 + 127 - 15 := by
  have hk := (log2_code_bounds h).2
  rw [f32Angle_eq_fields h, BitVec.extractLsb'_append_eq_of_le (by decide), Nat.sub_self, BitVec.extractLsb'_append_eq_right,
    BitVec.toNat_ofNat, Nat.mod_eq_of_lt (by omega)]

theorem fraction_f32Angle {code : BitVec 15} (h : code.toNat ≠ 0) :
    ((f32Angle code).extractLsb' 0 23).toNat = code.toNat * 360 * 2 ^ (23 - (code.toNat * 360).log2) - 2 ^ 23 := by
  have hnorm := normalized_bounds (n := code.toNat * 360) (by omega) (log2_code_bounds h).2
  rw [f32Angle_eq_fields h, BitVec.extractLsb'_append_eq_right, BitVec.toNat_ofNat, Nat.mod_eq_of_lt (by omega)]

/-- The sign bit of an angle is 0 (R163). -/
theorem getLsbD_f32Angle_sign (code : BitVec 15) : (f32Angle code).getLsbD 31 = false :=
  Nat.testBit_lt_two_pow (f32Angle_toNat_lt code)

/-- The exponent takes back the shift of the significand, and divides by 32768. -/
theorem two_pow_mul_two_zpow_exponent {k : Nat} (hk : k ≤ 23) :
    (2 : ℚ) ^ (23 - k) * 2 ^ (((k + 127 - 15 : ℕ) : ℤ) - 150) = 1 / 32768 := by
  rw [← zpow_natCast, ← zpow_add₀ two_ne_zero, show ((23 - k : ℕ) : ℤ) + (((k + 127 - 15 : ℕ) : ℤ) - 150) = -15 by omega]
  norm_num

/-- `F32Angle` keeps every bit of `code * 360` (R163). -/
theorem binary32Value_f32Angle (code : BitVec 15) : binary32Value (f32Angle code) = (code.toNat : ℚ) * 360 / 32768 := by
  by_cases h : code.toNat = 0
  · rw [f32Angle_of_eq_zero h, binary32Value_zero, h]
    norm_num
  obtain ⟨-, hk⟩ := log2_code_bounds h
  obtain ⟨hle, -⟩ := normalized_bounds (n := code.toNat * 360) (by omega) hk
  have hexp := exponent_f32Angle h
  have hnormal : (f32Angle code).extractLsb' 23 8 ≠ 0 := fun hzero => by simp [hzero] at hexp
  calc binary32Value (f32Angle code)
      = (2 ^ 23 + ((code.toNat * 360 * 2 ^ (23 - (code.toNat * 360).log2) - 2 ^ 23 : ℕ) : ℚ)) *
          2 ^ ((((code.toNat * 360).log2 + 127 - 15 : ℕ) : ℤ) - 150) := by
        rw [binary32Value_of_normal hnormal, getLsbD_f32Angle_sign, hexp, fraction_f32Angle h, if_neg (by decide), one_mul]
    _ = code.toNat * 360 *
          (2 ^ (23 - (code.toNat * 360).log2) * 2 ^ ((((code.toNat * 360).log2 + 127 - 15 : ℕ) : ℤ) - 150)) := by
        rw [Nat.cast_sub hle]
        push_cast
        ring
    _ = code.toNat * 360 / 32768 := by rw [two_pow_mul_two_zpow_exponent hk]; ring

/-! The angle of a raw word -/

theorem codeOf_toNat (raw : Half) : (codeOf raw).toNat = raw.toNat % 2 ^ 15 := by
  rw [codeOf, BitVec.extractLsb'_toNat, Nat.shiftRight_zero]

theorem angleErrOf_iff (raw : Half) : angleErrOf raw = true ↔ raw = 0xFFFF#16 := beq_iff_eq

/-- The sentinel's angle is the error value (R161). -/
theorem angleOf_sentinel : angleOf 0xFFFF#16 = 0xBF800000#32 := rfl

/-- Every other word's angle is its code's (R161). -/
theorem angleOf_of_ne {raw : Half} (h : raw ≠ 0xFFFF#16) : angleOf raw = f32Angle (codeOf raw) :=
  if_neg fun herr => h ((angleErrOf_iff raw).mp herr)

theorem binary32Value_angleOf {raw : Half} (h : raw ≠ 0xFFFF#16) :
    binary32Value (angleOf raw) = ((raw.toNat % 2 ^ 15 : ℕ) : ℚ) * 360 / 32768 := by
  rw [angleOf_of_ne h, binary32Value_f32Angle, codeOf_toNat]

theorem binary32Value_angleOf_ofNat {code : Nat} (h : code < 2 ^ 15) :
    binary32Value (angleOf (BitVec.ofNat 16 code)) = (code : ℚ) * 360 / 32768 := by
  have hnat : (BitVec.ofNat 16 code).toNat = code := Nat.mod_eq_of_lt (by omega)
  have hne : BitVec.ofNat 16 code ≠ 0xFFFF#16 := fun heq => by
    have hlast : code = 65535 := hnat.symm.trans (congrArg BitVec.toNat heq)
    omega
  rw [binary32Value_angleOf hne, hnat, Nat.mod_eq_of_lt h]

/-- Settles O31: `k` is `log2` of `code * 360`, and the three fields give the value. -/
theorem angleEncodingIsExact : Obligations.AngleEncodingIsExact := by
  refine ⟨binary32Value_angleErrorValue, fun code =>
    ⟨binary32Value_f32Angle code, ?reduced, ?bound, f32Angle_of_eq_zero, fun h => ?fields⟩⟩
  case reduced =>
    rw [binary32Value_f32Angle]
    ring
  case bound =>
    have := code.isLt
    omega
  case fields =>
    have hn : code.toNat * 360 ≠ 0 := by omega
    obtain ⟨hk8, hk⟩ := log2_code_bounds h
    have hnorm := normalized_bounds hn hk
    exact ⟨_, hk8, hk, Nat.log2_self_le hn, Nat.lt_log2_self, f32Angle_eq_fields h, by omega⟩

/-- Settles O32: an angle is its code times 360/32768, and a code is at most 32767. -/
theorem anglesAreBelowAFullTurn : Obligations.AnglesAreBelowAFullTurn := by
  refine ⟨fun raw h => ?range, ?least, ?greatest, fun code hcode => ?step, ?error⟩
  case range =>
    have hcode : ((raw.toNat % 2 ^ 15 : ℕ) : ℚ) ≤ 32767 := by
      exact_mod_cast Nat.le_of_lt_succ (Nat.mod_lt _ (Nat.two_pow_pos 15))
    rw [binary32Value_angleOf h]
    generalize raw.toNat % 2 ^ 15 = code at hcode ⊢
    exact ⟨by positivity, by linarith, by linarith⟩
  case least => exact (binary32Value_angleOf_ofNat (code := 0) (by decide)).trans (by norm_num)
  case greatest => exact (binary32Value_angleOf_ofNat (code := 32767) (by decide)).trans (by norm_num)
  case step =>
    rw [binary32Value_angleOf_ofNat hcode, binary32Value_angleOf_ofNat (Nat.lt_of_succ_lt hcode)]
    push_cast
    ring
  case error => exact angleOf_sentinel ▸ binary32Value_angleErrorValue

/-! The speed of a raw word -/

/-- The low fifteen bits of a word, as a pattern and as a number, are its code. -/
theorem toNat_and_code_mask (raw : Half) : (raw &&& 0x7FFF#16).toNat = (codeOf raw).toNat := by
  rw [codeOf_toNat, BitVec.toNat_and]
  exact Nat.and_two_pow_sub_one_eq_mod raw.toNat 15

theorem msb_codeOf (raw : Half) : (codeOf raw).msb = raw.getLsbD 14 := by
  simp [codeOf, BitVec.msb_eq_getLsbD_last]

/-- Sign extension keeps the signed value (R166). -/
theorem toInt_speedOf (raw : Half) : (speedOf raw).toInt = (codeOf raw).toInt :=
  BitVec.toInt_signExtend_of_le (by decide)

theorem speedOf_of_sign {raw : Half} (h : raw.getLsbD 14 = true) : speedOf raw = (raw &&& 0x7FFF#16) ||| 0x8000#16 := by
  apply BitVec.eq_of_toNat_eq
  have hcode : (codeOf raw).toNat < 2 ^ 15 := (codeOf raw).isLt
  rw [speedOf, BitVec.toNat_signExtend, if_pos ((msb_codeOf raw).trans h), BitVec.toNat_setWidth_of_le (by decide),
    BitVec.toNat_or, toNat_and_code_mask, Nat.or_comm]
  exact (Nat.add_comm _ _).trans (Nat.two_pow_add_eq_or_of_lt hcode 1)

theorem speedOf_of_no_sign {raw : Half} (h : raw.getLsbD 14 = false) : speedOf raw = raw &&& 0x7FFF#16 := by
  apply BitVec.eq_of_toNat_eq
  rw [toNat_and_code_mask, speedOf, BitVec.signExtend_eq_setWidth_of_msb_false ((msb_codeOf raw).trans h),
    BitVec.toNat_setWidth_of_le (by decide)]

/-- Settles O33: the speed is the code sign-extended, so its signed value is the code's, of fifteen bits. -/
theorem speedIsTheSignedCode : Obligations.SpeedIsTheSignedCode := by
  intro raw
  refine ⟨fun h => ⟨speedOf_of_sign h, ?negative⟩, fun h => ⟨speedOf_of_no_sign h, ?positive⟩, ?least, ?greatest⟩
  case negative =>
    rw [toNat_and_code_mask, toInt_speedOf, BitVec.toInt_eq_msb_cond, if_pos ((msb_codeOf raw).trans h)]
    omega
  case positive =>
    rw [toNat_and_code_mask, toInt_speedOf, BitVec.toInt_eq_toNat_of_msb ((msb_codeOf raw).trans h)]
  all_goals rw [toInt_speedOf]
  case least => exact BitVec.le_toInt (codeOf raw)
  case greatest => exact Int.le_of_lt_add_one BitVec.toInt_lt

end Sys2Proof.Machine
end

section
/-! SUPPORT. READ_ANGLE, READ_SPEED and READ_STATUS are reads: what each writes, its flags, and READ_STATUS beside READ_REG
(43_value_decoder.md R161, R162, R165 to R169). -/

namespace Sys2Proof.Machine

open Sys2Proof.Safety

/-- A read that may run completes, shows its draws and leaves the frame of a read. -/
theorem exec_read_completes {i : Instr} {s : State} {a : Half} (hs : Ready s) (ha : readAddress s.cfg i = some a) :
    ∃ t, exec i s = .next t ∧ ShowsRead i a s.draw t ∧ ReadFrame i a s t := by
  obtain ⟨t, hexec, hshows⟩ := exec_shows_read hs ha
  exact ⟨t, hexec, hshows, readFrame_of_exec hs ha hexec⟩

/-- A word is spelled by the draws exactly where it is the drawn one (42_register_channel.md R143). -/
theorem spells_iff (draw : Nat → Level) (value : Half) : Spells draw value ↔ drawnWord draw = value :=
  ⟨fun h => spells_unique draw _ _ (drawnWord_spells draw) h, fun h => h ▸ drawnWord_spells draw⟩

/-- Settles O21: the raw word is the drawn one, and the flag and the angle are functions of it. -/
theorem readAngleDecodesExactly : Obligations.ReadAngleDecodesExactly := by
  intro s hs
  obtain ⟨t, hexec, hshows, hframe⟩ := exec_read_completes (i := .readAngle) hs rfl
  have hresult : t.result = drawnWord s.draw := hshows.result
  have hangle : t.angle = angleOf t.result := hresult ▸ hshows.angle rfl
  have herr : t.angleErr = angleErrOf t.result := hresult ▸ hshows.angleErr rfl
  refine ⟨t, hexec, hshows.trace, (spells_iff _ _).mpr hresult.symm, herr ▸ angleErrOf_iff t.result, fun h => ?sentinel,
    fun h => ⟨?sign, ?value⟩, hframe.csHigh, hframe.sckLow, hframe.sdo, hframe.oe, hframe.flags, hframe.consumed,
    hframe.completed⟩
  case sentinel => rw [hangle, h, angleOf_sentinel]
  case sign => rw [hangle, angleOf_of_ne h, getLsbD_f32Angle_sign]
  case value => rw [hangle, binary32Value_angleOf h]

/-- Settles O22: the result is the drawn word's code, sign-extended. -/
theorem readSpeedSignExtends : Obligations.ReadSpeedSignExtends := by
  intro s raw hs hraw
  obtain ⟨t, hexec, hshows, hframe⟩ := exec_read_completes (i := .readSpeed) hs rfl
  have hresult : t.result = speedOf raw := (spells_iff _ _).mp hraw ▸ hshows.result
  obtain ⟨hangle, herr⟩ := hframe.angle (by simp)
  exact ⟨t, hexec, hshows.trace, fun j hj => hresult ▸ getLsbD_speedOf_of_lt raw hj, hresult ▸ getLsbD_speedOf_sign raw,
    hframe.csHigh, hframe.sckLow, hframe.sdo, hframe.oe, hangle, herr, hframe.flags, hframe.consumed, hframe.completed⟩

/-- Settles O23: the result is the drawn word. -/
theorem readStatusPassesThrough : Obligations.ReadStatusPassesThrough := by
  intro s hs
  obtain ⟨t, hexec, hshows, hframe⟩ := exec_read_completes (i := .readStatus) hs rfl
  obtain ⟨hangle, herr⟩ := hframe.angle (by simp)
  exact ⟨t, hexec, hshows.trace, (spells_iff _ _).mpr hshows.result.symm, hframe.csHigh, hframe.sckLow, hframe.sdo, hframe.oe,
    hangle, herr, hframe.flags, hframe.consumed, hframe.completed⟩

/-! READ_STATUS and READ_REG (R168) -/

/-- Both completing edges write the received word to `RESULT`. -/
theorem finish_of_plain_read {s : State} (hop : s.cmdOp = 0x4#4 ∨ s.cmdOp = 0x7#4) : finish s = complete (readRegWrites s) := by
  obtain hop | hop := hop <;> simp [finish, resultWrites, hop, readStatusWrites, readRegWrites]

/-- A transaction does not read the latch (10_state.md R33; 42_register_channel.md R141). -/
theorem run_transact_update_latch (a : Half) (s : State) (op : BitVec 4) (opnd : Half) :
    run (transact a) { s with cmdOp := op, cmdOpnd := opnd } = { run (transact a) s with cmdOp := op, cmdOpnd := opnd } := by
  rw [run_transact, run_transact]
  rfl

/-- The completing edge of a plain read does not read the latch. -/
theorem complete_readRegWrites_update_latch (s : State) (op : BitVec 4) (opnd : Half) :
    complete (readRegWrites { s with cmdOp := op, cmdOpnd := opnd }) =
      { complete (readRegWrites s) with cmdOp := op, cmdOpnd := opnd } := rfl

/-- The two commands start alike, the latch apart. -/
theorem start_readStatus_eq (a : Half) (s : State) :
    start .readStatus s =
      { start (.readReg a) s with cmdOp := opField (encode .readStatus), cmdOpnd := addrField (encode .readStatus) } := rfl

/-- The two commands end alike, the latch apart. -/
theorem finish_readStatus_eq (a : Half) (s : State) :
    finish (run (transact a) (start .readStatus s)) =
      { finish (run (transact a) (start (.readReg a) s)) with
        cmdOp := opField (encode .readStatus), cmdOpnd := addrField (encode .readStatus) } := by
  have hstatus : (run (transact a) (start .readStatus s)).cmdOp = 0x7#4 := by rw [run_cmdOp, start_cmdOp_eq_opcode]; rfl
  have hreg : (run (transact a) (start (.readReg a) s)).cmdOp = 0x4#4 := by rw [run_cmdOp, start_cmdOp_eq_opcode]; rfl
  rw [finish_of_plain_read (.inr hstatus), finish_of_plain_read (.inl hreg), start_readStatus_eq a, run_transact_update_latch,
    complete_readRegWrites_update_latch]

theorem eq_update_own_latch {t u : State} {op : BitVec 4} {opnd : Half} (h : t = { u with cmdOp := op, cmdOpnd := opnd }) :
    t = { u with cmdOp := t.cmdOp, cmdOpnd := t.cmdOpnd } := by
  subst h
  rfl

/-- Settles O24: waiting and rejection do not read the command; a command that runs is the same transaction at the same address,
ended by the same write. -/
theorem readStatusIsReadRegAtStatus : Obligations.ReadStatusIsReadRegAtStatus := by
  intro s
  cases hb : s.busy with
  | true => exact ⟨s, s, exec_waits .readStatus hb, exec_waits (.readReg s.cfg.addrStatus) hb, rfl⟩
  | false =>
    cases hinit : s.initDone with
    | false => exact ⟨_, _, exec_rejects .readStatus s hb hinit, exec_rejects (.readReg s.cfg.addrStatus) s hb hinit, rfl⟩
    | true =>
      exact ⟨_, _, exec_read (i := .readStatus) ⟨hb, hinit⟩ rfl, exec_read (i := .readReg s.cfg.addrStatus) ⟨hb, hinit⟩ rfl,
        eq_update_own_latch (finish_readStatus_eq s.cfg.addrStatus s)⟩

/-! The sentinel (R169) -/

/-- The three reads that are not READ_ANGLE return 0xFFFF as it is: as a speed it is its own sign extension. -/
theorem readResult_sentinel (i : Instr) : readResult i 0xFFFF#16 = 0xFFFF#16 := by
  unfold readResult
  split <;> rfl

/-- A read that is not READ_ANGLE leaves all five flags. -/
theorem ReadFrame.flags_eq {i : Instr} {a : Half} {s t : State} (h : ReadFrame i a s t) (hs : Ready s) (hi : i ≠ .readAngle) :
    t.flags = s.flags := by
  obtain ⟨hinit, hillegal, hnoinit⟩ := h.flags
  simp only [State.flags, hinit, hillegal, hnoinit, (h.angle hi).2, h.completed.busy, hs.busy]

/-- Settles O34: a read leaves the flags, READ_ANGLE's own apart, which says whether the drawn word is 0xFFFF. -/
theorem onlyReadAngleTestsTheSentinel : Obligations.OnlyReadAngleTestsTheSentinel := by
  intro s hs
  refine ⟨fun i hi => ?others, ?angle⟩
  case others =>
    obtain ⟨a, ha⟩ := exists_readAddress (hi.imp_right .inr) s.cfg
    have hne : i ≠ .readAngle := by obtain ⟨_, rfl⟩ | rfl | rfl := hi <;> simp
    obtain ⟨t, hexec, hshows, hframe⟩ := exec_read_completes hs ha
    refine ⟨t, hexec, hframe.flags_eq hs hne, fun hraw => ?_⟩
    rw [hshows.result, (spells_iff _ _).mp hraw, readResult_sentinel]
  case angle =>
    obtain ⟨t, hexec, hshows, -⟩ := exec_read_completes (i := .readAngle) hs rfl
    refine ⟨t, hexec, ?_⟩
    rw [spells_iff, ← angleErrOf_iff, ← hshows.angleErr rfl, getLsbD_flags]
    rfl

end Sys2Proof.Machine
end

section
/-! SUPPORT. INIT, first or repeated: its program from its start, then its completing edge (44_init.md R190, R191). -/

namespace Sys2Proof.Machine

/-- The completing edge of INIT makes INIT's completion write (40_command_dispatch.md R104). -/
theorem finish_of_init {s : State} (hop : s.cmdOp = 0x1#4) : finish s = complete (initWrites s) := by
  simp [finish, resultWrites, hop]

/-- INIT may start in every idle state; it runs its program and ends with `INIT_DONE` set (40_command_dispatch.md R102; R190). -/
theorem exec_init {s : State} (hb : s.busy = false) :
    exec .init s = .next (complete (initWrites (run (initProgram (start .init s)) (start .init s)))) := by
  have hop : (start .init s).cmdOp = 0x1#4 := start_cmdOp_eq_opcode .init s
  rw [exec_runs .init s hb ((mayStart_iff _ s).mpr (.inl rfl)), programOf_of_init hop,
    finish_of_init ((run_cmdOp _ _).trans hop)]

/-- Settles O17: the closed form of INIT's program from INIT's start, which clears the sticky errors, is read off field by field. -/
theorem initDrivesTheIdleLevels : Obligations.InitDrivesTheIdleLevels := by
  intro s hb
  rw [exec_init hb, run_initProgram]
  exact ⟨_, rfl, rfl, rfl, rfl, rfl, rfl, rfl, rfl, rfl, ⟨rfl, rfl, rfl⟩, ⟨rfl, rfl, rfl, rfl⟩, ⟨rfl, rfl, rfl, rfl⟩⟩

end Sys2Proof.Machine
end

section
/-! SUPPORT. Reset: an edge with `rst = 1`, and a command cut after some of its events. What an action adds to the trace and the
draws it takes go together, so the first events of a program take the draws of their own samples
(70_reset_and_hazards.md R230, R231). -/

namespace Sys2Proof.Machine

open Sys2Proof.Safety

/-- `rst = 1` wins over everything else at an edge (60_exceptions.md R204). -/
theorem clockEdge_of_rst {p : EdgeIn} (hrst : p.rst = true) (s : State) : clockEdge p s = resetBlock s := if_pos hrst

/-- Settles O37: the edge puts the block in reset, where `PIN_OE = 0`, and a reset keeps the trace. -/
theorem resetEdgeFromEveryState : Obligations.ResetEdgeFromEveryState := by
  intro s p hrst
  rw [clockEdge_of_rst hrst]
  exact ⟨atReset_resetBlock s, rfl, rfl, rfl, resetBlock_trace s, by simp [State.cmdReady, hrst]⟩

/-! What a list of actions logs -/

/-- From one state to the other the trace grew by these events, and the draws taken are those of their samples (00_scope.md R12). -/
structure Logs (tr : List PinEvent) (s t : State) : Prop where
  trace : t.trace = s.trace ++ tr
  sampleNo : t.sampleNo = s.sampleNo + (samples tr).length

theorem Logs.refl (s : State) : Logs [] s s := ⟨(List.append_nil _).symm, rfl⟩

theorem Logs.trans {tr₁ tr₂ : List PinEvent} {s t u : State} (h₁ : Logs tr₁ s t) (h₂ : Logs tr₂ t u) :
    Logs (tr₁ ++ tr₂) s u where
  trace := by rw [h₂.trace, h₁.trace, List.append_assoc]
  sampleNo := by rw [h₂.sampleNo, h₁.sampleNo, samples_append, List.length_append, Nat.add_assoc]

@[simp] theorem drive_sampleNo (s : State) (pin : Pin) (b : Level) : (s.drive pin b).sampleNo = s.sampleNo := by cases pin <;> rfl

@[simp] theorem driveAll_sampleNo (sets : List (Pin × Level)) (s : State) : (s.driveAll sets).sampleNo = s.sampleNo := by
  induction sets generalizing s with
  | nil => rfl
  | cons p sets ih => rw [State.driveAll, ih, drive_sampleNo]

/-- An action that is an event logs exactly one, and takes a draw exactly where that event is a sample. -/
theorem exists_logs_perform (s : State) {a : Micro} (ha : a.isEvent = true) : ∃ e, Logs [e] s (perform s a) := by
  cases a with
  | set pin b => exact ⟨_, congrArg (· ++ _) (drive_trace s pin b), drive_sampleNo s pin b⟩
  | group sets => exact ⟨_, congrArg (· ++ _) (driveAll_trace sets s), driveAll_sampleNo sets s⟩
  | wait d => exact ⟨_, rfl, rfl⟩
  | sendBit => exact ⟨_, rfl, rfl⟩
  | sample => exact ⟨_, rfl, rfl⟩
  | fall => exact ⟨_, rfl, rfl⟩
  | load v => cases ha
  | holdHigh => cases ha

/-- An action that is no event logs nothing and takes no draw. -/
theorem logs_nil_perform (s : State) {a : Micro} (ha : a.isEvent = false) : Logs [] s (perform s a) := by
  cases a with
  | load v => exact ⟨(List.append_nil _).symm, rfl⟩
  | holdHigh => exact ⟨(List.append_nil _).symm, rfl⟩
  | _ => cases ha

/-! The first events of a program -/

theorem firstEvents_zero (l : List Micro) : firstEvents 0 l = [] := by cases l <;> rfl

theorem firstEvents_nil (n : Nat) : firstEvents n [] = [] := by cases n <;> rfl

theorem firstEvents_cons_of_event {a : Micro} (ha : a.isEvent = true) (n : Nat) (l : List Micro) :
    firstEvents (n + 1) (a :: l) = a :: firstEvents n l := by
  rw [firstEvents, if_pos ha]

theorem firstEvents_cons_of_not_event {a : Micro} (ha : a.isEvent = false) (n : Nat) (l : List Micro) :
    firstEvents (n + 1) (a :: l) = a :: firstEvents (n + 1) l := by
  simp [firstEvents, ha]

/-- Cut after its n-th event, a list of actions has logged the first n events it logs when performed whole. -/
theorem exists_logs_run_firstEvents (n : Nat) (l : List Micro) (s : State) :
    ∃ tr, Logs tr s (run l s) ∧ Logs (tr.take n) s (run (firstEvents n l) s) := by
  induction l generalizing n s with
  | nil => exact ⟨[], .refl s, by rw [firstEvents_nil, List.take_nil]; exact .refl s⟩
  | cons a l ih =>
    cases ha : a.isEvent with
    | true =>
      obtain ⟨e, hevent⟩ := exists_logs_perform s ha
      obtain ⟨tr, hwhole, hcut⟩ := ih (n - 1) (perform s a)
      refine ⟨e :: tr, hevent.trans hwhole, ?_⟩
      cases n with
      | zero => exact firstEvents_zero (a :: l) ▸ .refl s
      | succ n => exact firstEvents_cons_of_event ha n l ▸ hevent.trans hcut
    | false =>
      have hsilent := logs_nil_perform s ha
      obtain ⟨tr, hwhole, hcut⟩ := ih n (perform s a)
      refine ⟨tr, hsilent.trans hwhole, ?_⟩
      cases n with
      | zero => exact firstEvents_zero (a :: l) ▸ .refl s
      | succ n => exact firstEvents_cons_of_not_event ha n l ▸ hsilent.trans hcut

/-! The step that accepts a word and resets -/

theorem step_of_resetDuring {s : State} {w : Word} {n : Nat} {rest : List HostEvent} (hwf : s.cfg.wellFormed = true)
    (hb : s.busy = false) (hhost : s.host = .resetDuring w n :: rest) :
    step s = .next (presentThenReset w n { s with host := rest }) := by
  rw [step_of_wellFormed s hwf]
  simp [takeHostEvent, hhost, hb]

theorem presentThenReset_of_decode {w : Word} {i : Instr} (hd : decode w = .command i) (n : Nat) (s : State) :
    presentThenReset w n s =
      if mayStart i s then resetBlock (run (firstEvents n (programOf (start i s))) (start i s))
      else resetBlock (rejectNoinit s) := by
  rw [presentThenReset, hd]

/-- What a command leaves when a reset cuts it after n events: a block in reset with the first n events of the command's trace on
record, and the draws of their samples taken. A command that may not start has none. -/
theorem presentThenReset_cuts {w : Word} {i : Instr} {s u : State} (hb : s.busy = false) (hd : decode w = .command i)
    (hexec : exec i s = .next u) (n : Nat) :
    (presentThenReset w n s).trace = u.trace.take n ∧ (presentThenReset w n s).host = s.host ∧
      (presentThenReset w n s).sampleNo = s.sampleNo + (samples (presentThenReset w n s).trace).length := by
  rw [presentThenReset_of_decode hd]
  cases hm : mayStart i s with
  | false =>
    obtain rfl := Host.Outcome.next.inj ((exec_rejects i s hb hm).symm.trans hexec)
    exact ⟨List.take_nil.symm, rfl, rfl⟩
  | true =>
    obtain rfl := Host.Outcome.next.inj ((exec_runs i s hb hm).symm.trans hexec)
    obtain ⟨tr, hwhole, hcut⟩ := exists_logs_run_firstEvents n (programOf (start i s)) (start i s)
    have htrace : (run (programOf (start i s)) (start i s)).trace = tr := by simpa using hwhole.trace
    have htake : (run (firstEvents n (programOf (start i s))) (start i s)).trace = tr.take n := by simpa using hcut.trace
    have hdraws := hcut.sampleNo
    rw [start_sampleNo, ← htake] at hdraws
    exact ⟨by rw [finish_trace, htrace]; exact htake, by simp, hdraws⟩

/-- Settles O39: the step accepts the word off the host's list and resets, and the cut trace is the start of the whole one. -/
theorem resetCutsTheTrace : Obligations.ResetCutsTheTrace := by
  intro s w n rest i u hwf hb hhost hd hexec
  obtain ⟨htrace, hrest, hdraws⟩ := presentThenReset_cuts (s := { s with host := rest }) hb hd hexec n
  obtain ⟨v, hreset⟩ := presentThenReset_eq_resetBlock w n { s with host := rest }
  exact ⟨_, step_of_resetDuring hwf hb hhost, hreset ▸ atReset_resetBlock v, htrace, hrest, hdraws⟩

end Sys2Proof.Machine
end

section
/-! SUPPORT. The waits of each command's trace, beside its pulses and samples (70_reset_and_hazards.md R243). -/

namespace Sys2Proof.Machine

open Sys2Proof.Safety

/-- Pieces of trace with equal waits: as many times the waits of one. -/
theorem minCycles_flatMap {c : Config} {k : Nat} {piece : Nat → List PinEvent} (h : ∀ i, minCycles c (piece i) = k)
    (l : List Nat) : minCycles c (l.flatMap piece) = l.length * k := by
  induction l with
  | nil => rw [List.flatMap_nil, minCycles_nil, List.length_nil, Nat.zero_mul]
  | cons i l ih => rw [List.flatMap_cons, minCycles_append, h, ih, List.length_cons, Nat.succ_mul, Nat.add_comm]

/-- Each bit sent waits once with `sck` low and once with it high (41_bit_transport.md R121). -/
theorem minCycles_txTrace (c : Config) (b : Byte) : minCycles c (txTrace b) = 8 * (c.tLo + c.tHi) :=
  minCycles_flatMap (fun i => by simp [txBitTrace, minCycles, Config.cycles]) _

/-- Each bit received waits once with `sck` low and once with it high (41_bit_transport.md R125). -/
theorem minCycles_rxTrace (c : Config) (draw : Nat → Level) (k : Nat) : minCycles c (rxTrace draw k) = 8 * (c.tLo + c.tHi) :=
  minCycles_flatMap (fun i => by simp [rxBitTrace, minCycles, Config.cycles]) _

/-- A transaction waits for its setup, its turnaround and its four bytes (42_register_channel.md R141). -/
theorem minCycles_transactTrace (c : Config) (a : Half) (draw : Nat → Level) :
    minCycles c (transactTrace a draw) = c.tCss + c.tTurn + 32 * (c.tLo + c.tHi) := by
  have hselect : minCycles c selectTrace = c.tCss := by simp [selectTrace, minCycles, Config.cycles]
  have hturn : minCycles c [.wait .tTurn] = c.tTurn := by simp [minCycles, Config.cycles]
  have hrise : minCycles c [.set .csN true] = 0 := rfl
  simp only [transactTrace_eq, replyTrace, minCycles_append, minCycles_txTrace, minCycles_rxTrace, hselect, hturn, hrise]
  omega

/-- INIT waits the settle time alone (44_init.md R190). -/
theorem minCycles_initTrace (c : Config) : minCycles c initTrace = c.tInit := by
  simp [initTrace, minCycles, Config.cycles]

/-- The bounds of R243 for a read, whichever it is. -/
theorem exec_read_traceBounds {i : Instr} {s : State} {a : Half} (hs : Ready s) (ha : readAddress s.cfg i = some a) :
    ∃ t, exec i s = .next t ∧ minCycles s.cfg t.trace = s.cfg.tCss + s.cfg.tTurn + 32 * (s.cfg.tLo + s.cfg.tHi) ∧
      setsOf .sck true t.trace = 32 ∧ (samples t.trace).length = 16 := by
  obtain ⟨t, hexec, hshows⟩ := exec_shows_read hs ha
  refine ⟨t, hexec, ?_⟩
  rw [hshows.trace, samples_transactTrace, List.length_map, List.length_range]
  exact ⟨minCycles_transactTrace s.cfg a s.draw, setsOf_sck_transactTrace a s.draw, rfl⟩

/-- Settles O30: INIT waits once, a byte transfer's trace is the one of its byte, a read's the one of a transaction. -/
theorem traceBoundsOfEveryCommand : Obligations.TraceBoundsOfEveryCommand := by
  intro i s hb hi
  have hready : i ≠ .init → Ready s := fun hne => ⟨hb, hi.resolve_left hne⟩
  cases i with
  | init =>
    obtain ⟨t, hexec, htrace, -⟩ := initDrivesTheIdleLevels s hb
    exact ⟨t, hexec, htrace ▸ ⟨minCycles_initTrace s.cfg, rfl, rfl⟩⟩
  | sendByte b =>
    obtain ⟨t, hexec, htrace, -⟩ := sendByteShiftsOutMsbFirst b s (hready (by simp))
    exact ⟨t, hexec, htrace ▸ ⟨minCycles_txTrace s.cfg b, setsOf_sck_txTrace b, rfl⟩⟩
  | recvByte =>
    obtain ⟨t, hexec, htrace, -⟩ := recvByteShiftsInMsbFirst s (hready (by simp))
    exact ⟨t, hexec, htrace ▸ ⟨minCycles_rxTrace s.cfg s.draw 0, setsOf_sck_rxTrace s.draw 0, rfl⟩⟩
  | readReg a => exact exec_read_traceBounds (hready (by simp)) rfl
  | readAngle => exact exec_read_traceBounds (hready (by simp)) rfl
  | readSpeed => exact exec_read_traceBounds (hready (by simp)) rfl
  | readStatus => exact exec_read_traceBounds (hready (by simp)) rfl

end Sys2Proof.Machine
end
